-- ==== Sys2Proof/Word.lean ====
section
/-! DEFINITION. The byte, the one width of every field, operand and table index (00_scope R6, R9). -/

namespace Sys2Proof

/-- An unsigned 8-bit integer, bit 0 the least significant (00_scope R8, R9). -/
abbrev Byte := BitVec 8

end Sys2Proof
end

