-- ==== Sys2Proof/Machine/Constants.lean ====
section
/-! DEFINITION. The fixed parameters of 00_scope R6 and the bus addresses of 20_memory R62. -/

namespace Sys2Proof.Machine

/-- `TelegramLength` (00_scope R6): bytes in a telegram. -/
def telegramLength : Nat := 6

/-- `DOMAIN_APP` (00_scope R6): the domain of application telegrams. -/
def domainApp : Byte := 0x01

/-- `POLL_MARKER` (00_scope R6): the command byte that marks a poll request. -/
def pollMarker : Byte := 0x00

/-- `FAN_TABLE` (00_scope R6), index 0 first. -/
def fanTable : List Byte := [0x01, 0x03, 0x07, 0x0F, 0x1F, 0x3F, 0x7F, 0xFF]

/-- `ADDR_MAINBOARDS` (20_memory R62); a label only. -/
def addrMainboards : Byte := 0x10

/-- `ADDR_MASTER` (20_memory R62), the receiver of every built telegram (44_encoder R231). -/
def addrMaster : Byte := 0x11

/-- `ADDR_BCAST_PANELS` (20_memory R62), a member of the local receiver set. -/
def addrBcastPanels : Byte := 0x20

/-- `ADDR_PANEL1` (20_memory R62), a member of the local receiver set. -/
def addrPanel1 : Byte := 0x21

/-- `ADDR_LON` (20_memory R62); a label only. -/
def addrLon : Byte := 0x28

/-- The default of the parameter `ADDR_PANEL8` (20_memory R62, 90_conflicts C1). -/
def addrPanel8Default : Byte := 0x29

/-- The variable code VXS labels "FanSpeed" (20_memory R58). -/
def codeFanSpeed : Byte := 0x29

/-- The variable code VXS labels "Select" (20_memory R58). -/
def codeSelect : Byte := 0xA3

end Sys2Proof.Machine
end

