-- ==== Sys2Proof/Syntax.lean ====
section
/-! DEFINITION. The instructions: one constructor for each row of spec/opcode_table.json. Each
operand is one whole byte (30_encoding R97); ignored operand bytes are not kept (R90). -/

namespace Sys2Proof

/-- The operations. The first sixteen are requests (30_encoding R91), the last three the telegram
classes (R99), which carry the fields of the telegram that their row does not fix. -/
inductive Instr where
  | cksum (b0 b1 b2 b3 b4 : Byte)
  | encode (sender receiver command value : Byte)
  | validate (b0 b1 b2 b3 b4 b5 : Byte)
  | pushb (b : Byte)
  | bldset (station code value : Byte)
  | bldpoll (station code : Byte)
  | reglook (code : Byte)
  | dectemp (raw : Byte)
  | decfan (raw : Byte)
  | encfan (level : Byte)
  | decsel (raw : Byte)
  | decprg (raw : Byte)
  | decprg2 (raw : Byte)
  | rdvar (code : Byte)
  | rdtraf (addr : Byte)
  | reservedF
  | tgPoll (sender receiver value checksum : Byte)
  | tgReport (sender receiver command value checksum : Byte)
  | tgRaw (domain sender receiver command value checksum : Byte)
  deriving DecidableEq, Repr

/-- A telegram (30_encoding R80), the fields in wire order. -/
structure Telegram where
  domain : Byte
  sender : Byte
  receiver : Byte
  command : Byte
  value : Byte
  checksum : Byte
  deriving DecidableEq, Repr

end Sys2Proof
end

