-- ==== Sys2Proof/Machine/Checksum.lean ====
section
/-! DEFINITION. The checksum, and the telegram as six bytes: packing, unpacking, validity and
classification (40_codec R120, R125; 30_encoding R81 to R84). -/

namespace Sys2Proof.Machine

/-- `checksum5` (40_codec R120): the five bytes added over the integers, then reduced mod 256. -/
def checksum5 (b0 b1 b2 b3 b4 : Byte) : Byte :=
  BitVec.ofNat 8 (b0.toNat + b1.toNat + b2.toNat + b3.toNat + b4.toNat)

/-- `pack` (30_encoding R81): offset 0 first (20_memory R52). -/
def pack (t : Telegram) : List Byte :=
  [t.domain, t.sender, t.receiver, t.command, t.value, t.checksum]

/-- `unpack` (30_encoding R81), of exactly six bytes (R85). -/
def unpack : List Byte → Option Telegram
  | [b0, b1, b2, b3, b4, b5] => some ⟨b0, b1, b2, b3, b4, b5⟩
  | _ => none

/-- The checksum a telegram's first five bytes call for. -/
def telegramSum (t : Telegram) : Byte :=
  checksum5 t.domain t.sender t.receiver t.command t.value

/-- `wf` (30_encoding R84), the only validity condition of a telegram. -/
abbrev telegramWf (t : Telegram) : Prop := t.checksum = telegramSum t

/-- `validate6` (40_codec R125). -/
def validate6 (b : List Byte) : Option Telegram :=
  match unpack b with
  | some t => if telegramWf t then some t else none
  | none => none

/-- `is_poll` (30_encoding R82). -/
abbrev isPoll (t : Telegram) : Prop := t.command = pollMarker

/-- `is_app` (30_encoding R83). -/
abbrev isApp (t : Telegram) : Prop := t.domain = domainApp

/-- The telegram ENCODE builds (40_codec R122). -/
def encodeTelegram (sender receiver command value : Byte) : Telegram :=
  ⟨domainApp, sender, receiver, command, value,
    checksum5 domainApp sender receiver command value⟩

end Sys2Proof.Machine
end

