-- ==== Sys2Proof/Machine/Table.lean ====
section
/-! DEFINITION. A byte-indexed table held as plain data: the entries present, by rising index, so
that equal tables are equal lists. An index that is not listed reads as `none`, "never sighted"
(10_state R29, R30: entries are created lazily and never removed). -/

namespace Sys2Proof.Machine

/-- The canonical form: the indices strictly rise. No entry equals what an unlisted index reads as,
since that is `none`. -/
abbrev tableWf {α : Type} (t : List (Byte × α)) : Prop := (t.map Prod.fst).Pairwise (· < ·)

/-- The entry at an index (00_scope R10, `MemRead`). -/
def tableGet {α : Type} : List (Byte × α) → Byte → Option α
  | [], _ => none
  | (k, v) :: rest, i => if i = k then some v else tableGet rest i

/-- Write the entry at an index (00_scope R10, `MemWrite`), keeping the canonical form. -/
def tableSet {α : Type} : List (Byte × α) → Byte → α → List (Byte × α)
  | [], i, x => [(i, x)]
  | (k, v) :: rest, i, x =>
    if i = k then (i, x) :: rest
    else if i < k then (i, x) :: (k, v) :: rest
    else (k, v) :: tableSet rest i x

end Sys2Proof.Machine
end

