-- ==== Sys2Proof/Config.lean ====
section
/-! DEFINITION. The configuration of 10_state R36, constant over a run and taken by the model as an
argument (00_scope R7), the constraints the spec puts on it, and the one free value: the interior of
the temperature curve. -/

namespace Sys2Proof

/-- The decoding rule of a variable (43_registry R190). `opaqueRaw` is the spec's `Opaque`, whose
name is a word of Lean. -/
inductive Kind where
  | opaqueRaw | direct | temperature | fanSpeed | select | program | program2
  deriving DecidableEq, Repr

/-- One entry of `REGISTRY` (43_registry R191): the name is metadata (10_state R37). -/
structure RegEntry where
  name : String
  kind : Kind
  deriving DecidableEq, Repr

/-- What `REGISTRY` holds for a code that is not known (43_registry R191 (c), R210). -/
def RegEntry.unknown : RegEntry := ⟨"unknown", .opaqueRaw⟩

/-- `Config` (10_state R36). -/
structure Config where
  /-- `LOCAL_ADDR` (10_state R27). -/
  localAddr : Byte
  /-- `ADDR_PANEL8` (00_scope R7, 20_memory R62). -/
  panel8 : Byte
  /-- `CNT_W`: `none` is unbounded (00_scope R7, 10_state R31). -/
  cntW : Option Nat
  /-- `TEMP_TABLE` (43_registry R196). -/
  temp : Vector Int 256
  /-- `REGISTRY` (43_registry R191): the codes it knows; every other code reads `RegEntry.unknown`. -/
  registry : List (Byte × RegEntry)
  deriving DecidableEq, Repr

/-- The constraints of 43_registry R191 (a) to (c) on `REGISTRY`; (d) is its being keyed by the code
alone. -/
def Config.RegistryLegal (c : Config) : Prop :=
  Machine.tableGet c.registry Machine.codeFanSpeed = some ⟨"FanSpeed", .fanSpeed⟩ ∧
  Machine.tableGet c.registry Machine.codeSelect = some ⟨"Select", .select⟩ ∧
  (∀ e ∈ c.registry, (e.2.kind = .opaqueRaw ↔ e.2.name = "unknown")) ∧
  Machine.tableWf c.registry

/-- The constraints of 43_registry R196 (a) to (c) on `TEMP_TABLE`; (d) follows from them. -/
def Config.TempLegal (c : Config) : Prop :=
  c.temp[0] = -74 ∧ c.temp[255] = 100 ∧
  ∀ (i : Nat) (h : i < 255), c.temp[i] ≤ c.temp[i + 1]

/-- Every constraint the spec puts on a configuration (92_eei_decisions, OPEN table). -/
def Config.Legal (c : Config) : Prop :=
  c.RegistryLegal ∧ c.TempLegal ∧ c.cntW ≠ some 0

/-- FREE VALUE: the interior of the temperature curve, which VXS does not print (43_registry R196;
log 5). It has no body: nothing can evaluate it. -/
opaque Config.tempCurve : Byte → Int

end Sys2Proof
end

