-- ==== Sys2Proof/Machine/Supplied.lean ====
section
/-! DEFINITION. The configuration State.reset is supplied with: the spec's defaults, and where it
gives none the choices of log 4 (LOCAL_ADDR), log 5 (TEMP_TABLE) and log 6 (REGISTRY). -/

namespace Sys2Proof.Machine

/-- A temperature brought into the range of 43_registry R196 (d). -/
def tempClamp (t : Int) : Int := max (-74) (min 100 t)

/-- The free curve made non-decreasing: the greatest clamped value up to an index, -74 at index 0. -/
def tempRising : Nat → Int
  | 0 => -74
  | n + 1 => max (tempRising n) (tempClamp (Config.tempCurve (BitVec.ofNat 8 (n + 1))))

/-- An entry of the supplied `TEMP_TABLE`: the two ends VXS prints, the free curve between. Every
legal table is this one for some curve, and every curve gives a legal table. -/
def tempEntry (i : Nat) : Int := if 255 ≤ i then 100 else tempRising i

/-- The supplied `TEMP_TABLE` (log 5). -/
def tempSupplied : Vector Int 256 := ⟨⟨(List.range 256).map tempEntry⟩, by simp⟩

/-- `REGISTRY_MIN` (43_registry R191), the smallest legal registry (log 6). -/
def registryMin : List (Byte × RegEntry) :=
  [(codeFanSpeed, ⟨"FanSpeed", .fanSpeed⟩), (codeSelect, ⟨"Select", .select⟩)]

/-- The configuration at State.reset. DESIGN CHOICE for `LOCAL_ADDR`: 0x22, the value of every
example of the spec, which gives no default (10_state R27; log 4). -/
def configSupplied : Config :=
  { localAddr := 0x22, panel8 := addrPanel8Default, cntW := none,
    temp := tempSupplied, registry := registryMin }

end Sys2Proof.Machine
end

