-- ==== Sys2Proof/Machine/State.lean ====
section
/-! DEFINITION. The state of VXCORE (10_state R36), the types of its responses and events
(30_encoding R93 to R96), the reasons a step can stop, and the state after reset. -/

namespace Sys2Proof.Machine

/-- `SelectFlags` (43_registry R204): the bits of a Select byte, bit 0 first. -/
structure SelectFlags where
  power : Bool
  co2Adjust : Bool
  rhAdjust : Bool
  heating : Bool
  filterGuard : Bool
  heatingInd : Bool
  faultInd : Bool
  serviceReminder : Bool
  deriving DecidableEq, Repr

/-- The boost-switch mode of a Program byte, bit 5 (43_registry R206). -/
inductive BoostSwitch where
  | fireplace | boost
  deriving DecidableEq, Repr

/-- The radiator type of a Program byte, bit 6 (43_registry R206). -/
inductive Radiator where
  | electric | water
  deriving DecidableEq, Repr

/-- `ProgramFlags` (43_registry R206). -/
structure ProgramFlags where
  intervalMin : BitVec 4
  humiditySeeker : Bool
  boostSwitch : BoostSwitch
  radiator : Radiator
  cascadeAdjust : Bool
  deriving DecidableEq, Repr

/-- The max-speed-limit mode of a Program2 byte, bit 0 (43_registry R208). -/
inductive MaxSpeedLimit where
  | withAdjustment | always
  deriving DecidableEq, Repr

/-- `Program2Flags` (43_registry R208). -/
structure Program2Flags where
  maxSpeedLimit : MaxSpeedLimit
  deriving DecidableEq, Repr

/-- `DecodedValue` (30_encoding R95): one case for each kind. -/
inductive DecodedValue where
  | opaqueRaw (raw : Byte)
  | direct (n : Byte)
  | temperature (t : Int)
  | fanSpeed (level : Nat)
  | select (f : SelectFlags)
  | program (f : ProgramFlags)
  | program2 (f : Program2Flags)
  deriving DecidableEq, Repr

/-- `Description` (30_encoding R96), with the registry's name (42_dispatch R167). -/
inductive Description where
  | poll (var : Byte) (kind : Kind) (name : String)
  | report (var : Byte) (kind : Kind) (name : String) (value : Byte)
  deriving DecidableEq, Repr

/-- The four notifications (30_encoding R94). -/
inductive Event where
  | frameAccepted (t : Telegram)
  | byteDropped (dropped expected received : Byte)
  | variableUpdated (code raw : Byte) (decoded : DecodedValue)
  | rawTraffic (sender receiver : Byte) (desc : Description)
  deriving DecidableEq, Repr

/-- The reasons of a contract fault (60_exceptions R243, R245). -/
inductive ContractFault where
  | fanLevelRange
  | illegalOp
  deriving DecidableEq, Repr

/-- The `Ok` payloads (30_encoding R93). -/
inductive Payload where
  /-- PUSHB: its results are its events. -/
  | empty
  /-- CKSUM. -/
  | sum (sum : Byte)
  /-- ENCODE, BLDSET, BLDPOLL: the six bytes, offset 0 first. -/
  | frame (t : List Byte)
  /-- VALIDATE; `t` is there exactly when `ok` (log 9). -/
  | validated (ok : Bool) (t : Option Telegram) (expected received : Byte)
  /-- REGLOOK, with the registry's name (43_registry R193). -/
  | registered (known : Bool) (kind : Kind) (name : String)
  /-- DECTEMP. -/
  | temperature (t : Int)
  /-- DECFAN. -/
  | level (level : Nat)
  /-- ENCFAN. -/
  | fanRaw (raw : Byte)
  /-- DECSEL. -/
  | select (f : SelectFlags)
  /-- DECPRG. -/
  | program (f : ProgramFlags)
  /-- DECPRG2. -/
  | program2 (f : Program2Flags)
  /-- RDVAR. -/
  | variable (seen : Bool) (raw : Byte) (cnt : Nat)
  /-- RDTRAF. -/
  | traffic (seen : Bool) (tx rx : Nat)
  deriving DecidableEq, Repr

/-- A response (30_encoding R93). -/
inductive Response where
  | ok (p : Payload)
  | fault (reason : ContractFault)
  deriving DecidableEq, Repr

/-- An entry of `VAR` (10_state R29). -/
structure VarEntry where
  raw : Byte
  cnt : Nat
  deriving DecidableEq, Repr

/-- An entry of `TRAF` (10_state R30). -/
structure TrafEntry where
  tx : Nat
  rx : Nat
  deriving DecidableEq, Repr

/-- What the outside can do to VXCORE: issue a request (30_encoding R90) or pulse `rst`
(70_reset R280). -/
inductive HostInput where
  | request (w : BitVec 52)
  | reset
  deriving DecidableEq, Repr

/-- The whole state. `win`, `var`, `traf` are the spec's (10_state R36); `cfg` is the spec's
configuration, constant over a run (log 3); `inbox`, `rsp`, `evs` are the model's form of the
request, response and event channels (30_encoding R102; log 1, log 2). -/
structure State where
  /-- The window, oldest byte first; `LEN` is its length (10_state R20, R22). -/
  win : List Byte
  /-- `VAR`, the entries sighted (10_state R29). -/
  var : List (Byte × VarEntry)
  /-- `TRAF`, the entries sighted (10_state R30). -/
  traf : List (Byte × TrafEntry)
  /-- The configuration (10_state R27, R33, R36). -/
  cfg : Config
  /-- What the host has yet to issue, in its order. -/
  inbox : List HostInput
  /-- The response of the last step. -/
  rsp : Option Response
  /-- The events of the last step, in the order of 60_exceptions R247. -/
  evs : List Event
  deriving DecidableEq, Repr

/-- Why the machine stops. -/
inductive Fault where
  /-- Raised by PUSHB alone, on a window of more than five bytes, which no run reaches (10_state R21;
  log 8). Safe: the spec gives no step there and the model claims none. -/
  | windowOverrun
  deriving DecidableEq, Repr

/-- Why an instruction has no meaning. -/
inductive Refusal where
  /-- Raised by an arm of `exec` whose instruction has no meaning yet; no arm is. Safe. -/
  | notModelled (mnemonic : String)
  deriving DecidableEq, Repr

/-- The state after reset under a configuration (10_state R38, 70_reset R280): window and both
tables empty. -/
def State.resetWith (c : Config) : State :=
  { win := [], var := [], traf := [], cfg := c, inbox := [], rsp := none, evs := [] }

/-- The machine right after reset (10_state R38), with the supplied configuration (logs 4 to 6). -/
def State.reset : State := State.resetWith configSupplied

end Sys2Proof.Machine
end

