-- ==== Sys2Proof/Machine/Operands.lean ====
section
/-! DEFINITION. The static tables and how a raw byte is looked up in them: the registry, the
temperature table, the fan table, the local receiver set (43_registry R191 to R201, 42_dispatch
R163), and the numeric codes of 30_encoding R94, R95. -/

namespace Sys2Proof.Machine

/-- `REGISTRY(c)` (43_registry R191), total. -/
def registryEntry (c : Config) (code : Byte) : RegEntry :=
  (tableGet c.registry code).getD RegEntry.unknown

/-- `known(c)` (43_registry R192). -/
def knownCode (c : Config) (code : Byte) : Bool := (registryEntry c code).kind != .opaqueRaw

/-- `TEMP_TABLE[raw]` (43_registry R197), total over the byte. -/
def tempOf (c : Config) (raw : Byte) : Int := c.temp[raw.toNat]'(raw.isLt)

/-- The 8-bit two's-complement port image of a temperature (43_registry R197); the model's value is
the integer. -/
def tempImage (t : Int) : Byte := BitVec.ofInt 8 t

/-- The level of a fan byte (43_registry R199): one more than the first position found in
`FAN_TABLE`, 0 for no match. -/
def fanLevel (raw : Byte) : Nat :=
  match fanTable.findIdx? (fun b => b == raw) with
  | some i => i + 1
  | none => 0

/-- The byte of a fan level (43_registry R201); no byte for a level outside 1..8. -/
def fanByte (level : Byte) : Option Byte :=
  if 1 ≤ level.toNat ∧ level.toNat ≤ 8 then fanTable[level.toNat - 1]? else none

/-- `LOCAL_SET` (42_dispatch R163). -/
def localSet (c : Config) : List Byte := [addrPanel1, c.panel8, c.localAddr, addrBcastPanels]

/-- `describe` (42_dispatch R167). -/
def describe (c : Config) (t : Telegram) : Description :=
  if isPoll t then
    .poll t.value (registryEntry c t.value).kind (registryEntry c t.value).name
  else
    .report t.command (registryEntry c t.command).kind (registryEntry c t.command).name t.value

/-- The 3-bit tag of a kind (30_encoding R95); 7 is unused. -/
def kindCode : Kind → BitVec 3
  | .opaqueRaw => 0
  | .direct => 1
  | .temperature => 2
  | .fanSpeed => 3
  | .select => 4
  | .program => 5
  | .program2 => 6

/-- The kind a decoded value is tagged with (30_encoding R95). -/
def decodedKind : DecodedValue → Kind
  | .opaqueRaw _ => .opaqueRaw
  | .direct _ => .direct
  | .temperature _ => .temperature
  | .fanSpeed _ => .fanSpeed
  | .select _ => .select
  | .program _ => .program
  | .program2 _ => .program2

/-- The 3-bit code of an event (30_encoding R94); 0, 5, 6 and 7 are never emitted. -/
def eventCode : Event → BitVec 3
  | .frameAccepted _ => 1
  | .byteDropped _ _ _ => 2
  | .variableUpdated _ _ _ => 3
  | .rawTraffic _ _ _ => 4

end Sys2Proof.Machine
end

