-- ==== Sys2Proof/Machine/Ops.lean ====
section
/-! DEFINITION. The named operations over the state: answering a request, the contract fault (the
one exception a request can take), emitting an event, the window, the two tables and their counters,
and reset. There is no return operation: 60_exceptions R249. -/

namespace Sys2Proof.Machine

/-- Answer the request `Ok` with a payload (00_scope R11, 30_encoding R93). -/
def respond (p : Payload) (s : State) : State := { s with rsp := some (.ok p) }

/-- `raise ContractFault(reason)` (00_scope R11, 60_exceptions R243): the response is
`Fault(reason)`, no event is emitted, and nothing else of the state changes; the next request is
served normally (log 7). -/
def raiseContractFault (r : ContractFault) (s : State) : State := { s with rsp := some (.fault r) }

/-- `emit E` (00_scope R11): append an event to the step's list. -/
def emit (e : Event) (s : State) : State := { s with evs := s.evs ++ [e] }

/-- Write the window (10_state R20). -/
def setWindow (w : List Byte) (s : State) : State := { s with win := w }

/-- Write one entry of `VAR` (10_state R29). -/
def setVar (c : Byte) (e : VarEntry) (s : State) : State := { s with var := tableSet s.var c e }

/-- Write one entry of `TRAF` (10_state R30). -/
def setTraf (a : Byte) (e : TrafEntry) (s : State) : State := { s with traf := tableSet s.traf a e }

/-- The increment of a counter (10_state R31): by 1, and with a finite `CNT_W` a counter at its
greatest value stays there (log 12). -/
def incCounter (c : Config) (n : Nat) : Nat :=
  match c.cntW with
  | none => n + 1
  | some w => if 2 ^ w - 1 ≤ n then n else n + 1

/-- `bump_tx` (42_dispatch R162). -/
def bumpTx (c : Config) : Option TrafEntry → TrafEntry
  | none => { tx := incCounter c 0, rx := 0 }
  | some e => { e with tx := incCounter c e.tx }

/-- `bump_rx` (42_dispatch R162). -/
def bumpRx (c : Config) : Option TrafEntry → TrafEntry
  | none => { tx := 0, rx := incCounter c 0 }
  | some e => { e with rx := incCounter c e.rx }

/-- Step 1 of DISPATCH (42_dispatch R161, R162): the sender's entry, then the receiver's, which reads
what the first may just have written. -/
def countTraffic (t : Telegram) (s : State) : State :=
  let s1 := setTraf t.sender (bumpTx s.cfg (tableGet s.traf t.sender)) s
  setTraf t.receiver (bumpRx s1.cfg (tableGet s1.traf t.receiver)) s1

/-- The entry of `VAR` after one update with a raw byte (42_dispatch R161, R165): created with the
counter 0, then incremented. -/
def bumpVar (c : Config) (raw : Byte) : Option VarEntry → VarEntry
  | none => { raw := raw, cnt := incCounter c 0 }
  | some e => { raw := raw, cnt := incCounter c e.cnt }

/-- The state of VXCORE brought to its reset values: the window and both tables empty, the
configuration untouched (70_reset R280). What the host has yet to issue is the host's and stays; a
pulse of `rst` is no request, so it has no response and no event (log 18). -/
def resetCore (s : State) : State :=
  { State.resetWith s.cfg with inbox := s.inbox }

end Sys2Proof.Machine
end

