-- ==== Sys2Proof/Machine/Builder.lean ====
section
/-! DEFINITION. The BLD family: BLDSET, BLDPOLL (44_encoder), each one ENCODE addressed to the
master (R231). The sender is the operand, not `LOCAL_ADDR`. -/

namespace Sys2Proof.Machine

/-- BLDSET (44_encoder R232). -/
def execBldset (station code value : Byte) (s : State) : Host.Outcome State Fault Refusal :=
  .next (respond (.frame (pack (encodeTelegram station addrMaster code value))) s)

/-- BLDPOLL (44_encoder R233). -/
def execBldpoll (station code : Byte) (s : State) : Host.Outcome State Fault Refusal :=
  .next (respond (.frame (pack (encodeTelegram station addrMaster pollMarker code))) s)

end Sys2Proof.Machine
end

