-- ==== Sys2Proof/Machine/Codec.lean ====
section
/-! DEFINITION. The CODEC family: CKSUM, ENCODE, VALIDATE (40_codec). -/

namespace Sys2Proof.Machine

/-- CKSUM (40_codec R121). -/
def execCksum (b0 b1 b2 b3 b4 : Byte) (s : State) : Host.Outcome State Fault Refusal :=
  .next (respond (.sum (checksum5 b0 b1 b2 b3 b4)) s)

/-- ENCODE (40_codec R122). -/
def execEncode (sender receiver command value : Byte) (s : State) :
    Host.Outcome State Fault Refusal :=
  .next (respond (.frame (pack (encodeTelegram sender receiver command value))) s)

/-- The payload of VALIDATE (40_codec R124): expected is the recomputed sum, received is byte 5. -/
def validatePayload (b0 b1 b2 b3 b4 b5 : Byte) : Payload :=
  let expected := checksum5 b0 b1 b2 b3 b4
  if expected = b5 then .validated true (unpack [b0, b1, b2, b3, b4, b5]) expected b5
  else .validated false none expected b5

/-- VALIDATE (40_codec R124). -/
def execValidate (b0 b1 b2 b3 b4 b5 : Byte) (s : State) : Host.Outcome State Fault Refusal :=
  .next (respond (validatePayload b0 b1 b2 b3 b4 b5) s)

end Sys2Proof.Machine
end

