-- ==== Sys2Proof/Machine/Flags.lean ====
section
/-! DEFINITION. The bitfields (43_registry R203 to R209) and the decoding of a variable (R211).
VXCORE has no status flags (10_state R25): these booleans are results and are latched nowhere.
Bit 0 is the least significant (00_scope R8; log 10). -/

namespace Sys2Proof.Machine

/-- The flags of a Select byte (43_registry R204). -/
def selectFlags (raw : Byte) : SelectFlags :=
  { power := raw.getLsbD 0
    co2Adjust := raw.getLsbD 1
    rhAdjust := raw.getLsbD 2
    heating := raw.getLsbD 3
    filterGuard := raw.getLsbD 4
    heatingInd := raw.getLsbD 5
    faultInd := raw.getLsbD 6
    serviceReminder := raw.getLsbD 7 }

/-- The members of a Program byte (43_registry R206). -/
def programFlags (raw : Byte) : ProgramFlags :=
  { intervalMin := raw.extractLsb' 0 4
    humiditySeeker := raw.getLsbD 4
    boostSwitch := if raw.getLsbD 5 then .boost else .fireplace
    radiator := if raw.getLsbD 6 then .water else .electric
    cascadeAdjust := raw.getLsbD 7 }

/-- The member of a Program2 byte (43_registry R208): the two-way mapping of 90_conflicts C10, not
the original program's. -/
def program2Flags (raw : Byte) : Program2Flags :=
  { maxSpeedLimit := if raw.getLsbD 0 then .always else .withAdjustment }

/-- `decode(c, raw)` (43_registry R211), total. -/
def decodeValue (c : Config) (code raw : Byte) : DecodedValue :=
  match (registryEntry c code).kind with
  | .direct => .direct raw
  | .temperature => .temperature (tempOf c raw)
  | .fanSpeed => .fanSpeed (fanLevel raw)
  | .select => .select (selectFlags raw)
  | .program => .program (programFlags raw)
  | .program2 => .program2 (program2Flags raw)
  | .opaqueRaw => .opaqueRaw raw

end Sys2Proof.Machine
end

