-- ==== Sys2Proof/Machine/Registry.lean ====
section
/-! DEFINITION. The REG family: REGLOOK, DECTEMP, DECFAN, ENCFAN, DECSEL, DECPRG, DECPRG2
(43_registry). -/

namespace Sys2Proof.Machine

/-- REGLOOK (43_registry R193). -/
def execReglook (code : Byte) (s : State) : Host.Outcome State Fault Refusal :=
  .next (respond (.registered (knownCode s.cfg code) (registryEntry s.cfg code).kind
    (registryEntry s.cfg code).name) s)

/-- DECTEMP (43_registry R197). -/
def execDectemp (raw : Byte) (s : State) : Host.Outcome State Fault Refusal :=
  .next (respond (.temperature (tempOf s.cfg raw)) s)

/-- DECFAN (43_registry R199). -/
def execDecfan (raw : Byte) (s : State) : Host.Outcome State Fault Refusal :=
  .next (respond (.level (fanLevel raw)) s)

/-- ENCFAN (43_registry R201): a level outside 1..8 takes the contract fault `FanLevelRange`. -/
def execEncfan (level : Byte) (s : State) : Host.Outcome State Fault Refusal :=
  match fanByte level with
  | some raw => .next (respond (.fanRaw raw) s)
  | none => .next (raiseContractFault .fanLevelRange s)

/-- DECSEL (43_registry R204). -/
def execDecsel (raw : Byte) (s : State) : Host.Outcome State Fault Refusal :=
  .next (respond (.select (selectFlags raw)) s)

/-- DECPRG (43_registry R206). -/
def execDecprg (raw : Byte) (s : State) : Host.Outcome State Fault Refusal :=
  .next (respond (.program (programFlags raw)) s)

/-- DECPRG2 (43_registry R208). -/
def execDecprg2 (raw : Byte) (s : State) : Host.Outcome State Fault Refusal :=
  .next (respond (.program2 (program2Flags raw)) s)

end Sys2Proof.Machine
end

