-- ==== Sys2Proof/Machine/Reserved.lean ====
section
/-! DEFINITION. The reserved request code 0xF (30_encoding R98). -/

namespace Sys2Proof.Machine

/-- RESERVED_F (30_encoding R98, 60_exceptions R243): the contract fault `IllegalOp`. -/
def execReservedF (s : State) : Host.Outcome State Fault Refusal :=
  .next (raiseContractFault .illegalOp s)

end Sys2Proof.Machine
end

