-- ==== Sys2Proof/Machine/Disp.lean ====
section
/-! DEFINITION. The DISP family: DISPATCH, which the three telegram classes of the opcode table
reach (42_dispatch R161, 30_encoding R99), RDVAR and RDTRAF. -/

namespace Sys2Proof.Machine

/-- Step 3 of DISPATCH (42_dispatch R161, R165): the command byte is the variable code, a poll's
0x00 too (R168; log 11); the table is written before the event is emitted (60_exceptions R247). -/
def updateVariable (t : Telegram) (s : State) : State :=
  emit (.variableUpdated t.command t.value (decodeValue s.cfg t.command t.value))
    (setVar t.command (bumpVar s.cfg t.value (tableGet s.var t.command)) s)

/-- DISPATCH (42_dispatch R161): count the traffic, then one of the three paths of R170. -/
def dispatchTelegram (t : Telegram) (s : State) : State :=
  let s1 := countTraffic t s
  if ¬ isApp t then emit (.rawTraffic t.sender t.receiver (describe s1.cfg t)) s1
  else if t.receiver ∈ localSet s1.cfg then updateVariable t s1
  else s1

/-- TG.POLL: an accepted application poll (30_encoding R99) is dispatched (42_dispatch R161). -/
def execTgPoll (sender receiver value checksum : Byte) (s : State) :
    Host.Outcome State Fault Refusal :=
  .next (dispatchTelegram ⟨domainApp, sender, receiver, pollMarker, value, checksum⟩ s)

/-- TG.REPORT: an accepted application report or set (30_encoding R99) is dispatched
(42_dispatch R161). -/
def execTgReport (sender receiver command value checksum : Byte) (s : State) :
    Host.Outcome State Fault Refusal :=
  .next (dispatchTelegram ⟨domainApp, sender, receiver, command, value, checksum⟩ s)

/-- TG.RAW: an accepted telegram of another domain (30_encoding R99) is dispatched
(42_dispatch R161). -/
def execTgRaw (domain sender receiver command value checksum : Byte) (s : State) :
    Host.Outcome State Fault Refusal :=
  .next (dispatchTelegram ⟨domain, sender, receiver, command, value, checksum⟩ s)

/-- The payload of RDVAR (42_dispatch R172): zeros for an entry never sighted. -/
def variablePayload : Option VarEntry → Payload
  | none => .variable false 0 0
  | some e => .variable true e.raw e.cnt

/-- RDVAR (42_dispatch R172). -/
def execRdvar (code : Byte) (s : State) : Host.Outcome State Fault Refusal :=
  .next (respond (variablePayload (tableGet s.var code)) s)

/-- The payload of RDTRAF (42_dispatch R173): zeros for an entry never sighted. -/
def trafficPayload : Option TrafEntry → Payload
  | none => .traffic false 0 0
  | some e => .traffic true e.tx e.rx

/-- RDTRAF (42_dispatch R173). -/
def execRdtraf (addr : Byte) (s : State) : Host.Outcome State Fault Refusal :=
  .next (respond (trafficPayload (tableGet s.traf addr)) s)

end Sys2Proof.Machine
end

