-- ==== Sys2Proof/Machine/Sync.lean ====
section
/-! DEFINITION. The SYNC family: SYNC.STEP, PUSHB, the pseudo-operation PUSHN, and the greedy scan
that describes a whole stream (41_framesync). -/

namespace Sys2Proof.Machine

/-- The candidate of six bytes examined (41_framesync R141, step 3): the new window and the event. -/
def examine (b0 b1 b2 b3 b4 b5 : Byte) : List Byte × Event :=
  let expected := checksum5 b0 b1 b2 b3 b4
  if expected = b5 then ([], .frameAccepted ⟨b0, b1, b2, b3, b4, b5⟩)
  else ([b1, b2, b3, b4, b5], .byteDropped b0 expected b5)

/-- `SYNC.STEP` (41_framesync R141): `none` only for a window that is not one at rest, of more than
five bytes (10_state R21). -/
def syncStep (win : List Byte) (b : Byte) : Option (List Byte × Option Event) :=
  let cand := win ++ [b]
  if cand.length < telegramLength then some (cand, none)
  else match cand with
    | [b0, b1, b2, b3, b4, b5] =>
      let r := examine b0 b1 b2 b3 b4 b5
      some (r.1, some r.2)
    | _ => none

/-- PUSHB (41_framesync R146). The response is `Ok` in every case; it is written before DISPATCH,
which writes no response, so that an accept ends in the telegram's own meaning. -/
def execPushb (b : Byte) (s : State) : Host.Outcome State Fault Refusal :=
  match syncStep s.win b with
  | none => .fault .windowOverrun
  | some (w, none) => .next (respond .empty (setWindow w s))
  | some (w, some (.frameAccepted t)) =>
    .next (dispatchTelegram t (respond .empty (emit (.frameAccepted t) (setWindow w s))))
  | some (w, some e) => .next (respond .empty (emit e (setWindow w s)))

/-- PUSHN (41_framesync R148): the left fold of PUSHB; the events of the batch are appended in
order. -/
def pushBatch : List Byte → State → Host.Outcome State Fault Refusal
  | [], s => .next s
  | b :: bs, s =>
    match execPushb b s with
    | .next s' => pushBatch bs s'
    | .fault r => .fault r
    | .refused r => .refused r

/-- `scan` (41_framesync R143) with fuel, one unit for each candidate examined. -/
def scanFuel : Nat → List Byte → List Event × List Byte
  | 0, xs => ([], xs)
  | n + 1, xs =>
    match xs with
    | b0 :: b1 :: b2 :: b3 :: b4 :: b5 :: rest =>
      let e := checksum5 b0 b1 b2 b3 b4
      if e = b5 then
        let r := scanFuel n rest
        (.frameAccepted ⟨b0, b1, b2, b3, b4, b5⟩ :: r.1, r.2)
      else
        let r := scanFuel n (b1 :: b2 :: b3 :: b4 :: b5 :: rest)
        (.byteDropped b0 e b5 :: r.1, r.2)
    | _ => ([], xs)

/-- `scan` (41_framesync R143); a stream of n bytes has fewer than n candidates. -/
def scan (xs : List Byte) : List Event × List Byte := scanFuel xs.length xs

end Sys2Proof.Machine
end

