-- ==== Sys2Proof/Machine/Dispatch.lean ====
section
/-! DEFINITION. The meaning of each instruction: one arm for each constructor. -/

namespace Sys2Proof.Machine

def exec (i : Instr) (s : State) : Host.Outcome State Fault Refusal :=
  match i with
  | .cksum b0 b1 b2 b3 b4 => Sys2Proof.Machine.execCksum b0 b1 b2 b3 b4 s
  | .encode a b c v => Sys2Proof.Machine.execEncode a b c v s
  | .validate b0 b1 b2 b3 b4 b5 => Sys2Proof.Machine.execValidate b0 b1 b2 b3 b4 b5 s
  | .pushb b => Sys2Proof.Machine.execPushb b s
  | .bldset a c v => Sys2Proof.Machine.execBldset a c v s
  | .bldpoll a c => Sys2Proof.Machine.execBldpoll a c s
  | .reglook c => Sys2Proof.Machine.execReglook c s
  | .dectemp r => Sys2Proof.Machine.execDectemp r s
  | .decfan r => Sys2Proof.Machine.execDecfan r s
  | .encfan n => Sys2Proof.Machine.execEncfan n s
  | .decsel r => Sys2Proof.Machine.execDecsel r s
  | .decprg r => Sys2Proof.Machine.execDecprg r s
  | .decprg2 r => Sys2Proof.Machine.execDecprg2 r s
  | .rdvar c => Sys2Proof.Machine.execRdvar c s
  | .rdtraf a => Sys2Proof.Machine.execRdtraf a s
  | .reservedF => Sys2Proof.Machine.execReservedF s
  | .tgPoll a b v k => Sys2Proof.Machine.execTgPoll a b v k s
  | .tgReport a b c v k => Sys2Proof.Machine.execTgReport a b c v k s
  | .tgRaw d a b c v k => Sys2Proof.Machine.execTgRaw d a b c v k s

end Sys2Proof.Machine
end

