-- ==== Sys2Proof/WellFormed.lean ====
section
/-! DEFINITION. Which instructions are well formed: every request is, for any operand bytes
(30_encoding R97; an ENCFAN level outside 1..8 is a legal encoding that answers a fault, R98), and a
telegram is when it meets the side conditions of its class (30_encoding R99). -/

namespace Sys2Proof

/-- The telegram a telegram-class instruction stands for; `none` for a request. -/
def Instr.telegram : Instr → Option Telegram
  | .cksum _ _ _ _ _ => none
  | .encode _ _ _ _ => none
  | .validate _ _ _ _ _ _ => none
  | .pushb _ => none
  | .bldset _ _ _ => none
  | .bldpoll _ _ => none
  | .reglook _ => none
  | .dectemp _ => none
  | .decfan _ => none
  | .encfan _ => none
  | .decsel _ => none
  | .decprg _ => none
  | .decprg2 _ => none
  | .rdvar _ => none
  | .rdtraf _ => none
  | .reservedF => none
  | .tgPoll s r v k => some ⟨Machine.domainApp, s, r, Machine.pollMarker, v, k⟩
  | .tgReport s r c v k => some ⟨Machine.domainApp, s, r, c, v, k⟩
  | .tgRaw d s r c v k => some ⟨d, s, r, c, v, k⟩

/-- The condition on an operand that the class's pattern does not express (30_encoding R99):
`c != 0x00` for TG.REPORT, `d != 0x01` for TG.RAW. -/
def Instr.classOk : Instr → Bool
  | .cksum _ _ _ _ _ => true
  | .encode _ _ _ _ => true
  | .validate _ _ _ _ _ _ => true
  | .pushb _ => true
  | .bldset _ _ _ => true
  | .bldpoll _ _ => true
  | .reglook _ => true
  | .dectemp _ => true
  | .decfan _ => true
  | .encfan _ => true
  | .decsel _ => true
  | .decprg _ => true
  | .decprg2 _ => true
  | .rdvar _ => true
  | .rdtraf _ => true
  | .reservedF => true
  | .tgPoll _ _ _ _ => true
  | .tgReport _ _ c _ _ => c != Machine.pollMarker
  | .tgRaw d _ _ _ _ _ => d != Machine.domainApp

/-- The side condition `k == sum8(d, s, r, c, v)` (30_encoding R84, R99). -/
def Instr.sumOk (i : Instr) : Bool :=
  match i.telegram with
  | none => true
  | some t => decide (Machine.telegramWf t)

/-- Well formed: the class's condition and the checksum. -/
def Instr.wellFormed (i : Instr) : Bool := i.classOk && i.sumOk

end Sys2Proof
end

