-- ==== Sys2Proof/Decode.lean ====
section
/-! DEFINITION. Decoding and encoding: the 52-bit request word (30_encoding R90, R91) and the 48-bit
telegram (R80, R99). Decoding is total; what is not a telegram is rejected by name. -/

namespace Sys2Proof

/-- The two encodings: a request word, or a telegram as a 48-bit pattern with offset 0 in bits 47:40
(30_encoding R80). -/
inductive Code where
  | req52 (w : BitVec 52)
  | tg48 (w : BitVec 48)
  deriving DecidableEq, Repr

/-- Why six bytes, or a number of bytes other than six, are no telegram (30_encoding R84, R85, R98). -/
inductive DecodeError where
  | badChecksum (expected received : Byte)
  | badLength (n : Nat)
  deriving DecidableEq, Repr

/-- `op = REQ[51:48]` (30_encoding R90). -/
def requestOp (w : BitVec 52) : BitVec 4 := w.extractLsb' 48 4

/-- The operand byte `a<k>`, k = 0..5: `a0 = REQ[47:40]` down to `a5 = REQ[7:0]` (30_encoding R90). -/
def requestOperand (w : BitVec 52) (k : Nat) : Byte := w.extractLsb' (40 - 8 * k) 8

/-- A request word from its fields (30_encoding R90). -/
def requestWord (op : BitVec 4) (a0 a1 a2 a3 a4 a5 : Byte) : BitVec 52 :=
  op ++ a0 ++ a1 ++ a2 ++ a3 ++ a4 ++ a5

/-- The request a word names (30_encoding R91): total, since all sixteen op codes have a row. -/
def decodeRequest (w : BitVec 52) : Instr :=
  match (requestOp w).toNat with
  | 0x0 => .cksum (requestOperand w 0) (requestOperand w 1) (requestOperand w 2)
      (requestOperand w 3) (requestOperand w 4)
  | 0x1 => .encode (requestOperand w 0) (requestOperand w 1) (requestOperand w 2)
      (requestOperand w 3)
  | 0x2 => .validate (requestOperand w 0) (requestOperand w 1) (requestOperand w 2)
      (requestOperand w 3) (requestOperand w 4) (requestOperand w 5)
  | 0x3 => .pushb (requestOperand w 0)
  | 0x4 => .bldset (requestOperand w 0) (requestOperand w 1) (requestOperand w 2)
  | 0x5 => .bldpoll (requestOperand w 0) (requestOperand w 1)
  | 0x6 => .reglook (requestOperand w 0)
  | 0x7 => .dectemp (requestOperand w 0)
  | 0x8 => .decfan (requestOperand w 0)
  | 0x9 => .encfan (requestOperand w 0)
  | 0xA => .decsel (requestOperand w 0)
  | 0xB => .decprg (requestOperand w 0)
  | 0xC => .decprg2 (requestOperand w 0)
  | 0xD => .rdvar (requestOperand w 0)
  | 0xE => .rdtraf (requestOperand w 0)
  | _ => .reservedF

/-- The telegram of a 48-bit pattern (30_encoding R80). -/
def telegramOfWord (w : BitVec 48) : Telegram :=
  ⟨w.extractLsb' 40 8, w.extractLsb' 32 8, w.extractLsb' 24 8, w.extractLsb' 16 8,
    w.extractLsb' 8 8, w.extractLsb' 0 8⟩

/-- The 48-bit pattern of a telegram (30_encoding R80). -/
def telegramWord (t : Telegram) : BitVec 48 :=
  t.domain ++ t.sender ++ t.receiver ++ t.command ++ t.value ++ t.checksum

/-- The class of a telegram, the three rows tested in the order of 30_encoding R99, under the side
condition of the checksum. -/
def classify (t : Telegram) : Except DecodeError Instr :=
  if t.checksum ≠ Machine.telegramSum t then
    .error (.badChecksum (Machine.telegramSum t) t.checksum)
  else if t.domain = Machine.domainApp ∧ t.command = Machine.pollMarker then
    .ok (.tgPoll t.sender t.receiver t.value t.checksum)
  else if t.domain = Machine.domainApp then
    .ok (.tgReport t.sender t.receiver t.command t.value t.checksum)
  else .ok (.tgRaw t.domain t.sender t.receiver t.command t.value t.checksum)

/-- The instruction a code stands for. -/
def decode : Code → Except DecodeError Instr
  | .req52 w => .ok (decodeRequest w)
  | .tg48 w => classify (telegramOfWord w)

/-- The telegram-class instruction of a string of bytes, offset 0 first (20_memory R52). -/
def decodeBytes (bs : List Byte) : Except DecodeError Instr :=
  match Machine.unpack bs with
  | some t => classify t
  | none => .error (.badLength bs.length)

/-- The encoding of an instruction, ignored operand bytes zero (30_encoding R91, R99). -/
def encode : Instr → Code
  | .cksum b0 b1 b2 b3 b4 => .req52 (requestWord 0x0 b0 b1 b2 b3 b4 0)
  | .encode s r c v => .req52 (requestWord 0x1 s r c v 0 0)
  | .validate b0 b1 b2 b3 b4 b5 => .req52 (requestWord 0x2 b0 b1 b2 b3 b4 b5)
  | .pushb b => .req52 (requestWord 0x3 b 0 0 0 0 0)
  | .bldset l c v => .req52 (requestWord 0x4 l c v 0 0 0)
  | .bldpoll l c => .req52 (requestWord 0x5 l c 0 0 0 0)
  | .reglook c => .req52 (requestWord 0x6 c 0 0 0 0 0)
  | .dectemp r => .req52 (requestWord 0x7 r 0 0 0 0 0)
  | .decfan r => .req52 (requestWord 0x8 r 0 0 0 0 0)
  | .encfan n => .req52 (requestWord 0x9 n 0 0 0 0 0)
  | .decsel r => .req52 (requestWord 0xA r 0 0 0 0 0)
  | .decprg r => .req52 (requestWord 0xB r 0 0 0 0 0)
  | .decprg2 r => .req52 (requestWord 0xC r 0 0 0 0 0)
  | .rdvar c => .req52 (requestWord 0xD c 0 0 0 0 0)
  | .rdtraf a => .req52 (requestWord 0xE a 0 0 0 0 0)
  | .reservedF => .req52 (requestWord 0xF 0 0 0 0 0 0)
  | .tgPoll s r v k => .tg48 (telegramWord ⟨Machine.domainApp, s, r, Machine.pollMarker, v, k⟩)
  | .tgReport s r c v k => .tg48 (telegramWord ⟨Machine.domainApp, s, r, c, v, k⟩)
  | .tgRaw d s r c v k => .tg48 (telegramWord ⟨d, s, r, c, v, k⟩)

/-- The code an instruction of the opcode table stands for, by the number of bits of its row: 48 bits
are a telegram, 52 and more (a row's 52 bits in whole bytes are 56) a request word (log 16). -/
def codeOfTableWord (nbits w : Nat) : Option Code :=
  if nbits = 48 then
    if w < 2 ^ 48 then some (.tg48 (BitVec.ofNat 48 w)) else none
  else if 52 ≤ nbits then
    if w < 2 ^ 52 then some (.req52 (BitVec.ofNat 52 w)) else none
  else none

/-- The instruction the decoder reads from an opcode-table word. -/
def decodeTableWord (nbits w : Nat) : Option Instr :=
  match codeOfTableWord nbits w with
  | none => none
  | some c => match decode c with
    | .ok i => some i
    | .error _ => none

end Sys2Proof
end

