-- ==== Sys2Proof/Machine/Fetch.lean ====
section
/-! DEFINITION. How a step takes what the host issues, and how an instruction is placed where the
next step takes it (log 1, log 15, log 17, log 18). -/

namespace Sys2Proof.Machine

/-- The start of a request: it leaves the host's list, and the response and events of the step
before are gone (60_exceptions R247: every event is delivered in its step). -/
def beginRequest (rest : List HostInput) (s : State) : State :=
  { s with inbox := rest, rsp := none, evs := [] }

/-- The step of a pulse of `rst` (70_reset R280). -/
def resetStep (rest : List HostInput) (s : State) : State := resetCore { s with inbox := rest }

/-- The step in which no request is pending: all state is kept (60_exceptions R256), and nothing is
answered or emitted (log 17). -/
def idleStep (s : State) : State := { s with rsp := none, evs := [] }

/-- A request word placed first in the host's list. -/
def placeRequest (w : BitVec 52) (s : State) : State := { s with inbox := .request w :: s.inbox }

/-- A telegram placed so that the next step takes its last byte: the five bytes before it pend in the
window, and the host issues PUSHB of the sixth (log 15). -/
def placeTelegram (t : Telegram) (s : State) : State :=
  placeRequest (requestWord 0x3 t.checksum 0 0 0 0 0)
    (setWindow [t.domain, t.sender, t.receiver, t.command, t.value] s)

/-- A code placed where the next step takes it. -/
def placeCode : Code → State → State
  | .req52 w, s => placeRequest w s
  | .tg48 w, s => placeTelegram (telegramOfWord w) s

end Sys2Proof.Machine
end

