-- ==== Sys2Proof/Machine/Step.lean ====
section
/-! DEFINITION. One step (00_scope R12): one request of the host, or a pulse of `rst`, or nothing. -/

namespace Sys2Proof.Machine

/-- One step. Every request word decodes (30_encoding R91), so no step is refused. -/
def step (s : State) : Host.Outcome State Fault Refusal :=
  match s.inbox with
  | [] => .next (idleStep s)
  | .reset :: rest => .next (resetStep rest s)
  | .request w :: rest => exec (decodeRequest w) (beginRequest rest s)

/-- The state with an opcode-table word stored where `step` takes its next instruction. -/
def State.withFetchWord (s : State) (nbits w : Nat) : State :=
  match codeOfTableWord nbits w with
  | none => s
  | some c => placeCode c s

end Sys2Proof.Machine
end

