-- ==== Sys2Proof/Safety.lean ====
section
/-! DEFINITION. The terms statements are written in: the invariant of the resting state, what a list
of events says of the stream, what a dispatch does to the traffic table, and which bits of a request
word its operation names. -/

namespace Sys2Proof.Machine

/-- A counter's value is one its width can hold (10_state R31). -/
def counterFits (c : Config) (n : Nat) : Prop :=
  match c.cntW with
  | none => True
  | some w => n ≤ 2 ^ w - 1

/-- What holds of the state between requests: at most five pending bytes (10_state R21), both tables
in canonical form, a legal configuration, counters that fit and that have counted what created their
entry (42_dispatch R172, R173). -/
structure Inv (s : State) : Prop where
  window : s.win.length ≤ 5
  varWf : tableWf s.var
  trafWf : tableWf s.traf
  legal : s.cfg.Legal
  varCount : ∀ c e, tableGet s.var c = some e → 1 ≤ e.cnt ∧ counterFits s.cfg e.cnt
  trafCount : ∀ a e, tableGet s.traf a = some e →
    1 ≤ e.tx + e.rx ∧ counterFits s.cfg e.tx ∧ counterFits s.cfg e.rx

/-- The events of the synchronizer (41_framesync R141). -/
def isSyncEvent : Event → Bool
  | .frameAccepted _ => true
  | .byteDropped _ _ _ => true
  | .variableUpdated _ _ _ => false
  | .rawTraffic _ _ _ => false

/-- The synchronizer's events of a list, in order. -/
def syncEvents (es : List Event) : List Event := es.filter isSyncEvent

/-- Whether an event is an accept. -/
def isAccept : Event → Bool
  | .frameAccepted _ => true
  | .byteDropped _ _ _ => false
  | .variableUpdated _ _ _ => false
  | .rawTraffic _ _ _ => false

/-- Whether an event is a drop. -/
def isDrop : Event → Bool
  | .frameAccepted _ => false
  | .byteDropped _ _ _ => true
  | .variableUpdated _ _ _ => false
  | .rawTraffic _ _ _ => false

/-- `A` of 41_framesync R144. -/
def acceptCount (es : List Event) : Nat := es.countP isAccept

/-- `D` of 41_framesync R144. -/
def dropCount (es : List Event) : Nat := es.countP isDrop

/-- The pushed bytes an event accounts for, oldest first (41_framesync R144). -/
def eventBytes : Event → List Byte
  | .frameAccepted t => pack t
  | .byteDropped d _ _ => [d]
  | .variableUpdated _ _ _ => []
  | .rawTraffic _ _ _ => []

/-- A receiver is in the local receiver set (42_dispatch R163), member by member. -/
def LocalReceiver (c : Config) (r : Byte) : Prop :=
  r = 0x21 ∨ r = c.panel8 ∨ r = c.localAddr ∨ r = 0x20

/-- The counts of an address; zeros where it has no entry (42_dispatch R162). -/
def trafCounts (t : List (Byte × TrafEntry)) (a : Byte) : TrafEntry := (tableGet t a).getD ⟨0, 0⟩

/-- The count of a variable; zero where it has no entry (42_dispatch R161, "lazily create"). -/
def varCount (t : List (Byte × VarEntry)) (c : Byte) : Nat := ((tableGet t c).map VarEntry.cnt).getD 0

/-- What one dispatch does to the traffic table (42_dispatch R162): the sender's `tx` and the
receiver's `rx` go up by one update, one entry gets both when they are the same address, and every
other address reads as before. -/
def TrafficCounted (c : Config) (sender receiver : Byte) (old new : List (Byte × TrafEntry)) : Prop :=
  ∀ a, tableGet new a =
    if a = sender ∧ a = receiver then
      some ⟨incCounter c (trafCounts old a).tx, incCounter c (trafCounts old a).rx⟩
    else if a = sender then some ⟨incCounter c (trafCounts old a).tx, (trafCounts old a).rx⟩
    else if a = receiver then some ⟨(trafCounts old a).tx, incCounter c (trafCounts old a).rx⟩
    else tableGet old a

/-- The sum of all `tx` (42_dispatch R173). -/
def sumTx (t : List (Byte × TrafEntry)) : Nat := (t.map (fun e => e.2.tx)).sum

/-- The sum of all `rx` (42_dispatch R173). -/
def sumRx (t : List (Byte × TrafEntry)) : Nat := (t.map (fun e => e.2.rx)).sum

/-- The bits of a request word that its operation names (30_encoding R91), by op code; the rest are
ignored (R90). -/
def namedBits (op : BitVec 4) : BitVec 52 :=
  match op.toNat with
  | 0x0 => 0xFFFFFFFFFFF00
  | 0x1 => 0xFFFFFFFFF0000
  | 0x2 => 0xFFFFFFFFFFFFF
  | 0x4 => 0xFFFFFFF000000
  | 0x5 => 0xFFFFF00000000
  | 0xF => 0xF000000000000
  | _ => 0xFFF0000000000

/-- The host's issuing of `PUSHB b`. -/
def pushInput (b : Byte) : HostInput := .request (requestWord 0x3 b 0 0 0 0 0)

/-- The requests: every instruction that is not a telegram class (30_encoding R91, R99). -/
def isRequest (i : Instr) : Bool := i.telegram.isNone

/-- The requests that read and write no state but one table entry (20_memory R57). -/
def isPure : Instr → Bool
  | .cksum _ _ _ _ _ => true
  | .encode _ _ _ _ => true
  | .validate _ _ _ _ _ _ => true
  | .pushb _ => false
  | .bldset _ _ _ => true
  | .bldpoll _ _ => true
  | .reglook _ => true
  | .dectemp _ => true
  | .decfan _ => true
  | .encfan _ => true
  | .decsel _ => true
  | .decprg _ => true
  | .decprg2 _ => true
  | .rdvar _ => true
  | .rdtraf _ => true
  | .reservedF => true
  | .tgPoll _ _ _ _ => false
  | .tgReport _ _ _ _ _ => false
  | .tgRaw _ _ _ _ _ _ => false

end Sys2Proof.Machine
end

