-- ==== Sys2Proof/Certificates/Slice0/Obligations.lean ====
section
/-! DEFINITION. The statements. A rule the spec marks [derived] or [decision] is its own inference
or choice: a statement that rests on one says so and has basis 'derived'. -/

open Sys2Proof Sys2Proof.Machine

/-! ## Encoding -/

/-- Decoding undoes encoding, for every well-formed instruction of both formats (30_encoding
sections 2 and 7): no bit of an operand is dropped. -/
def Obligations.DecodeInvertsEncode : Prop :=
  ∀ i : Instr, i.wellFormed = true → decode (encode i) = .ok i

/-- Every request word decodes to a well-formed instruction, and encoding that again gives the word
with the bits its operation does not name set to zero (30_encoding section 2; the word's layout and
op codes are the spec's decisions D2 and D3). -/
def Obligations.RequestWordKeepsNamedBits : Prop :=
  ∀ w : BitVec 52, (decodeRequest w).wellFormed = true ∧ isRequest (decodeRequest w) = true ∧
    decode (.req52 w) = .ok (decodeRequest w) ∧
    encode (decodeRequest w) = .req52 (w &&& namedBits (requestOp w))

/-- Six bytes are a telegram of exactly one of the three classes when the sixth is the sum of the
first five mod 256, the classes told apart by the domain and the command, and otherwise they are
refused as a bad checksum; as a 48-bit pattern with offset 0 leftmost they decode the same; no other
number of bytes is a telegram (30_encoding sections 1 and 7). -/
def Obligations.TelegramClassesInTableOrder : Prop :=
  (∀ d s r c v k : Byte,
    (d.toNat + s.toNat + r.toNat + c.toNat + v.toNat) % 256 = k.toNat →
      (d = 1 → c = 0 → decodeBytes [d, s, r, c, v, k] = .ok (.tgPoll s r v k)) ∧
      (d = 1 → c ≠ 0 → decodeBytes [d, s, r, c, v, k] = .ok (.tgReport s r c v k)) ∧
      (d ≠ 1 → decodeBytes [d, s, r, c, v, k] = .ok (.tgRaw d s r c v k))) ∧
  (∀ d s r c v k : Byte,
    (d.toNat + s.toNat + r.toNat + c.toNat + v.toNat) % 256 ≠ k.toNat →
      ∃ e, decodeBytes [d, s, r, c, v, k] = .error (.badChecksum e k) ∧
        e.toNat = (d.toNat + s.toNat + r.toNat + c.toNat + v.toNat) % 256) ∧
  (∀ d s r c v k : Byte,
    decode (.tg48 (d ++ s ++ r ++ c ++ v ++ k)) = decodeBytes [d, s, r, c, v, k]) ∧
  (∀ bs : List Byte, bs.length ≠ 6 → decodeBytes bs = .error (.badLength bs.length))

/-- Words printed in 95_test_vectors decode to the instruction they are printed for. -/
def Obligations.PrintedWordsDecode : Prop :=
  decode (.req52 0x001112000A399) = .ok (.cksum 0x01 0x11 0x20 0x00 0xA3) ∧
  decode (.req52 0x2011121A38057) = .ok (.validate 0x01 0x11 0x21 0xA3 0x80 0x57) ∧
  decode (.req52 0x375DEADBEEF99) = .ok (.pushb 0x75) ∧
  decode (.req52 0x422291F000000) = .ok (.bldset 0x22 0x29 0x1F) ∧
  decode (.req52 0xB6A0000000000) = .ok (.decprg 0x6A) ∧
  decode (.req52 0xE220000000000) = .ok (.rdtraf 0x22) ∧
  decode (.req52 0xFFFFFFFFFFFFF) = .ok .reservedF ∧
  decode (.tg48 0x01112000A3D5) = .ok (.tgPoll 0x11 0x20 0xA3 0xD5) ∧
  decode (.tg48 0x012222290775) = .ok (.tgReport 0x22 0x22 0x29 0x07 0x75) ∧
  decode (.tg48 0x021121290F6C) = .ok (.tgRaw 0x02 0x11 0x21 0x29 0x0F 0x6C)

/-! ## The step -/

/-- A step on a pending request is the meaning of the instruction its word decodes to, run on the
state with that request taken from the host's list and no response and no event yet (00_scope
section 6; the list and the two outputs are the model's, logs 1 and 2). -/
def Obligations.StepRunsDecodedRequest : Prop :=
  ∀ (s : State) (w : BitVec 52) (rest : List HostInput) (i : Instr),
    s.inbox = .request w :: rest → decode (.req52 w) = .ok i →
      step s = exec i { s with inbox := rest, rsp := none, evs := [] }

/-- An instruction of the opcode table placed for the next step is what that step runs: a request at
once; a telegram by the PUSHB that accepts it, after its FrameAccepted (log 15). -/
def Obligations.PlacedInstructionRunsNext : Prop :=
  (∀ (s : State) (w : Nat) (i : Instr), decodeTableWord 56 w = some i →
    step (s.withFetchWord 56 w) = exec i { s with rsp := none, evs := [] }) ∧
  (∀ (s : State) (w : Nat) (i : Instr), decodeTableWord 48 w = some i →
    ∃ t, i.telegram = some t ∧
      step (s.withFetchWord 48 w) =
        exec i { s with win := [], rsp := some (.ok .empty), evs := [.frameAccepted t] })

/-- After reset the window and both tables are empty; a pulse of `rst` makes them so from any state,
changes nothing of the configuration or of what the host has yet to issue, and emits no event
(70_reset_and_hazards section 1; the empty window is the spec's decision D6, the pulse as an input
log 18). -/
def Obligations.ResetEmptiesWindowAndTables : Prop :=
  (State.reset.win = [] ∧ (∀ c, tableGet State.reset.var c = none) ∧
    (∀ a, tableGet State.reset.traf a = none)) ∧
  (∀ (s : State) (rest : List HostInput), s.inbox = .reset :: rest →
    step s = .next { s with win := [], var := [], traf := [], inbox := rest, rsp := none, evs := [] })

/-- With no request pending a step keeps the whole machine and answers and emits nothing
(60_exceptions section 4; that an idle machine steps at all is the model's choice, log 17). -/
def Obligations.IdleStepKeepsMachine : Prop :=
  ∀ s : State, s.inbox = [] → step s = .next { s with rsp := none, evs := [] }

/-! ## CODEC -/

/-- R121: CKSUM answers the sum of its five bytes over the integers, mod 256, for any operands and
any sixth byte, and changes nothing else. -/
def Obligations.CksumAnswersSumMod256 : Prop :=
  (∀ b0 b1 b2 b3 b4 x : Byte,
    decode (.req52 (0x0#4 ++ b0 ++ b1 ++ b2 ++ b3 ++ b4 ++ x)) = .ok (.cksum b0 b1 b2 b3 b4)) ∧
  (∀ (b0 b1 b2 b3 b4 : Byte) (s : State), ∃ k : Byte,
    k.toNat = (b0.toNat + b1.toNat + b2.toNat + b3.toNat + b4.toNat) % 256 ∧
    k = b0 + b1 + b2 + b3 + b4 ∧
    exec (.cksum b0 b1 b2 b3 b4) s = .next { s with rsp := some (.ok (.sum k)) })

/-- R127: any permutation of the five leading bytes has the same checksum; sender and receiver, or
command and value, of a well-formed telegram may be exchanged and it stays well formed. -/
def Obligations.ChecksumIgnoresOrder : Prop :=
  (∀ (a0 a1 a2 a3 a4 b0 b1 b2 b3 b4 : Byte) (s : State),
    [a0, a1, a2, a3, a4].Perm [b0, b1, b2, b3, b4] →
      exec (.cksum a0 a1 a2 a3 a4) s = exec (.cksum b0 b1 b2 b3 b4) s) ∧
  (∀ d s r c v k : Byte, validate6 [d, s, r, c, v, k] ≠ none →
    validate6 [d, r, s, c, v, k] = some ⟨d, r, s, c, v, k⟩ ∧
    validate6 [d, s, r, v, c, k] = some ⟨d, s, r, v, c, k⟩)

/-- What the checksum detects (40_codec section 4, an inference the spec marks as its own): one
corrupted byte always; two corrupted bytes exactly unless their changes cancel mod 256; a frame of
six equal bytes is well formed for four values only. -/
def Obligations.ChecksumDetectsUncancelledChanges : Prop :=
  (∀ f : List Byte, validate6 f ≠ none →
    (∀ (i : Nat) (x : Byte), i < 6 → x ≠ f.getD i 0 → validate6 (f.set i x) = none) ∧
    (∀ (i j : Nat) (x y : Byte), i < j → j < 5 →
      (validate6 ((f.set i x).set j y) ≠ none ↔ x + y = f.getD i 0 + f.getD j 0)) ∧
    (∀ (i : Nat) (x y : Byte), i < 5 →
      (validate6 ((f.set i x).set 5 y) ≠ none ↔ x + f.getD 5 0 = y + f.getD i 0))) ∧
  (∀ x : Byte, validate6 (List.replicate 6 x) ≠ none ↔
    x = 0x00 ∨ x = 0x40 ∨ x = 0x80 ∨ x = 0xC0)

/-- R122: ENCODE answers the six bytes 1, sender, receiver, command, value, checksum, for any
operands, and changes nothing else; with command 0x00 they are a poll whose value is the polled code,
with any other command a report. -/
def Obligations.EncodeAnswersFrame : Prop :=
  (∀ a b c v x y : Byte,
    decode (.req52 (0x1#4 ++ a ++ b ++ c ++ v ++ x ++ y)) = .ok (.encode a b c v)) ∧
  (∀ (a b c v : Byte) (s : State), ∃ k : Byte,
    k.toNat = (1 + a.toNat + b.toNat + c.toNat + v.toNat) % 256 ∧
    exec (.encode a b c v) s = .next { s with rsp := some (.ok (.frame [0x01, a, b, c, v, k])) } ∧
    (c = 0 → decodeBytes [0x01, a, b, c, v, k] = .ok (.tgPoll a b v k)) ∧
    (c ≠ 0 → decodeBytes [0x01, a, b, c, v, k] = .ok (.tgReport a b c v k)))

/-- ENCODE is injective, its results are well formed with domain 1, and no operation of VXCORE
answers a frame of another domain (40_codec section 2, an inference the spec marks as its own). -/
def Obligations.OnlyDomainOneIsBuilt : Prop :=
  (∀ (a b c v a' b' c' v' : Byte) (s t t' : State) (f : List Byte),
    exec (.encode a b c v) s = .next t → exec (.encode a' b' c' v') s = .next t' →
    t.rsp = some (.ok (.frame f)) → t'.rsp = some (.ok (.frame f)) →
      a = a' ∧ b = b' ∧ c = c' ∧ v = v' ∧ validate6 f ≠ none) ∧
  (∀ (i : Instr) (s t : State) (f : List Byte), s.rsp = none → exec i s = .next t →
    t.rsp = some (.ok (.frame f)) → f.length = 6 ∧ f.head? = some 0x01 ∧ validate6 f ≠ none)

/-- VALIDATE answers the recomputed sum and the sixth byte, with the telegram exactly when the two
are equal, whatever the domain; both outcomes are `Ok` responses and nothing else changes (40_codec
section 3; `Ok` with ok = false is the spec's decision D4, which byte is called expected its D20). -/
def Obligations.ValidateComparesChecksum : Prop :=
  (∀ b0 b1 b2 b3 b4 b5 : Byte,
    decode (.req52 (0x2#4 ++ b0 ++ b1 ++ b2 ++ b3 ++ b4 ++ b5)) =
      .ok (.validate b0 b1 b2 b3 b4 b5)) ∧
  (∀ (b0 b1 b2 b3 b4 b5 : Byte) (s : State), ∃ e : Byte,
    e.toNat = (b0.toNat + b1.toNat + b2.toNat + b3.toNat + b4.toNat) % 256 ∧
    exec (.validate b0 b1 b2 b3 b4 b5) s = .next { s with rsp := some (.ok
      (if e = b5 then .validated true (some ⟨b0, b1, b2, b3, b4, b5⟩) e b5
       else .validated false none e b5)) })

/-- R126: the six bytes ENCODE answers pass VALIDATE with every field preserved. -/
def Obligations.ValidateAcceptsEncoded : Prop :=
  ∀ (a b c v : Byte) (s s' : State), ∃ k : Byte,
    k.toNat = (1 + a.toNat + b.toNat + c.toNat + v.toNat) % 256 ∧
    exec (.encode a b c v) s = .next { s with rsp := some (.ok (.frame [0x01, a, b, c, v, k])) } ∧
    exec (.validate 0x01 a b c v k) s' =
      .next { s' with rsp := some (.ok (.validated true (some ⟨0x01, a, b, c, v, k⟩) k k)) }

/-! ## BLD -/

/-- R232: BLDSET answers the frame of ENCODE with the operand as sender and the master 0x11 as
receiver, for any operands (a code of 0x00 too), and changes nothing else. -/
def Obligations.BldsetAnswersFrame : Prop :=
  (∀ l c v x y z : Byte,
    decode (.req52 (0x4#4 ++ l ++ c ++ v ++ x ++ y ++ z)) = .ok (.bldset l c v)) ∧
  (∀ (l c v : Byte) (s : State), ∃ k : Byte,
    k.toNat = (1 + l.toNat + 0x11 + c.toNat + v.toNat) % 256 ∧
    exec (.bldset l c v) s = .next { s with rsp := some (.ok (.frame [0x01, l, 0x11, c, v, k])) } ∧
    exec (.bldset l c v) s = exec (.encode l 0x11 c v) s ∧
    (c = 0 → decodeBytes [0x01, l, 0x11, c, v, k] = .ok (.tgPoll l 0x11 v k)))

/-- BLDPOLL answers the frame of ENCODE with command 0x00 and the code as value, to the master, which
is also what BLDSET of code 0x00 answers, and changes nothing else (44_encoder; the last equality is
an inference the spec marks as its own). -/
def Obligations.BldpollAnswersFrame : Prop :=
  (∀ l c x y z u : Byte,
    decode (.req52 (0x5#4 ++ l ++ c ++ x ++ y ++ z ++ u)) = .ok (.bldpoll l c)) ∧
  (∀ (l c : Byte) (s : State), ∃ k : Byte,
    k.toNat = (1 + l.toNat + 0x11 + c.toNat) % 256 ∧
    exec (.bldpoll l c) s = .next { s with rsp := some (.ok (.frame [0x01, l, 0x11, 0x00, c, k])) } ∧
    exec (.bldpoll l c) s = exec (.bldset l 0x00 c) s)

/-- A frame that BLDSET or BLDPOLL answers, echoed by the transport into an empty window, is accepted
and counted, and writes no variable unless the master's address is in the local receiver set
(42_dispatch section 1, an inference the spec marks as its own). -/
def Obligations.EchoedBuiltFrameIsTrafficOnly : Prop :=
  ∀ (i : Instr) (l : Byte) (s t : State) (f : List Byte),
    (∃ c v, i = .bldset l c v ∨ i = .bldpoll l c) → s.win = [] →
    exec i s = .next t → t.rsp = some (.ok (.frame f)) →
    ∃ u tg, pushBatch f t = .next u ∧ unpack f = some tg ∧ u.win = [] ∧
      TrafficCounted s.cfg l 0x11 s.traf u.traf ∧
      (s.cfg.localAddr ≠ 0x11 → s.cfg.panel8 ≠ 0x11 →
        u.var = s.var ∧ u.evs = s.evs ++ [.frameAccepted tg])

/-- Every frame of the builders passes VALIDATE with its fields preserved (44_encoder, an inference
the spec marks as its own). -/
def Obligations.BuiltFramesValidate : Prop :=
  ∀ (i : Instr) (s t : State) (b0 b1 b2 b3 b4 b5 : Byte),
    (∃ l c v, i = .bldset l c v ∨ i = .bldpoll l c) → exec i s = .next t →
    t.rsp = some (.ok (.frame [b0, b1, b2, b3, b4, b5])) →
      b0 = 0x01 ∧ b2 = 0x11 ∧
      exec (.validate b0 b1 b2 b3 b4 b5) t =
        .next { t with rsp := some (.ok (.validated true (some ⟨b0, b1, b2, b3, b4, b5⟩) b5 b5)) }

/-! ## REG -/

/-- REGLOOK answers the registry's entry of the code, known exactly when the kind is not Opaque, and
changes nothing else; under every legal registry known also means that the name is not "unknown", and
the two codes VXS numbers are known (43_registry section 1). That a code the list does not hold reads
("unknown", Opaque) is the model's form of the registry (log 6, DESIGN CHOICE); that 0xA3 has the kind
Select is the spec's decision D21. -/
def Obligations.ReglookAnswersEntry : Prop :=
  (∀ c x y z u v : Byte,
    decode (.req52 (0x6#4 ++ c ++ x ++ y ++ z ++ u ++ v)) = .ok (.reglook c)) ∧
  (∀ (c : Byte) (s : State), exec (.reglook c) s = .next { s with rsp := some (.ok (.registered
    (decide ((registryEntry s.cfg c).kind ≠ .opaqueRaw)) (registryEntry s.cfg c).kind
    (registryEntry s.cfg c).name)) }) ∧
  (∀ (c : Byte) (cfg : Config), tableGet cfg.registry c = none →
    registryEntry cfg c = ⟨"unknown", .opaqueRaw⟩) ∧
  (∀ (c : Byte) (cfg : Config), cfg.RegistryLegal →
    ((registryEntry cfg c).kind = .opaqueRaw ↔ (registryEntry cfg c).name = "unknown")) ∧
  (∀ cfg : Config, cfg.RegistryLegal →
    registryEntry cfg 0x29 = ⟨"FanSpeed", .fanSpeed⟩ ∧
    registryEntry cfg 0xA3 = ⟨"Select", .select⟩)

/-- DECTEMP answers the table's entry of the raw byte and changes nothing else; under every legal
table the answer lies in -74..100, does not fall as the byte rises, is -74 at 0x00 and 100 at 0xFF,
and fits its 8-bit port image (43_registry section 3; the image is the spec's decision D27). -/
def Obligations.DectempAnswersTable : Prop :=
  (∀ r x y z u v : Byte,
    decode (.req52 (0x7#4 ++ r ++ x ++ y ++ z ++ u ++ v)) = .ok (.dectemp r)) ∧
  (∀ (r : Byte) (s : State),
    exec (.dectemp r) s =
      .next { s with rsp := some (.ok (.temperature (s.cfg.temp[r.toNat]'(r.isLt)))) }) ∧
  (∀ (s t : State) (r : Byte) (d : Int), s.cfg.TempLegal → exec (.dectemp r) s = .next t →
    t.rsp = some (.ok (.temperature d)) →
      -74 ≤ d ∧ d ≤ 100 ∧ (r = 0x00 → d = -74) ∧ (r = 0xFF → d = 100) ∧ (tempImage d).toInt = d ∧
      ∀ (r' : Byte) (t' : State) (d' : Int), r.toNat ≤ r'.toNat → exec (.dectemp r') s = .next t' →
        t'.rsp = some (.ok (.temperature d')) → d ≤ d')

/-- R199: DECFAN answers level L for the byte of L low ones, 1 ≤ L ≤ 8, and the sentinel 0 for every
other byte, and changes nothing else. -/
def Obligations.DecfanAnswersLevel : Prop :=
  (∀ r x y z u v : Byte,
    decode (.req52 (0x8#4 ++ r ++ x ++ y ++ z ++ u ++ v)) = .ok (.decfan r)) ∧
  (∀ (r : Byte) (s : State), ∃ l : Nat,
    exec (.decfan r) s = .next { s with rsp := some (.ok (.level l)) } ∧
    ((1 ≤ l ∧ l ≤ 8 ∧ r.toNat = 2 ^ l - 1) ∨
      (l = 0 ∧ ∀ m, 1 ≤ m → m ≤ 8 → r.toNat ≠ 2 ^ m - 1)))

/-- ENCFAN answers the byte of L low ones for a level 1..8; for every other level the response is
Fault(FanLevelRange); nothing else changes (43_registry section 4; the fault is the spec's decision
D16, a response and not a stop of the model by log 7). -/
def Obligations.EncfanAnswersByteOrFault : Prop :=
  (∀ n x y z u v : Byte,
    decode (.req52 (0x9#4 ++ n ++ x ++ y ++ z ++ u ++ v)) = .ok (.encfan n)) ∧
  (∀ (n : Byte) (s : State), 1 ≤ n.toNat → n.toNat ≤ 8 →
    exec (.encfan n) s =
      .next { s with rsp := some (.ok (.fanRaw (BitVec.ofNat 8 (2 ^ n.toNat - 1)))) }) ∧
  (∀ (n : Byte) (s : State), n.toNat = 0 ∨ 9 ≤ n.toNat →
    exec (.encfan n) s = .next { s with rsp := some (.fault .fanLevelRange) })

/-- Decoding the byte of a level 1..8 gives the level back; a byte of the fan table comes back from
its level; every other byte decodes to 0, which has no byte (43_registry section 4; the fault of
level 0 is the spec's decision D16, a response by log 7). -/
def Obligations.FanRoundTrip : Prop :=
  (∀ (n r : Byte) (s t : State), exec (.encfan n) s = .next t → t.rsp = some (.ok (.fanRaw r)) →
    exec (.decfan r) s = .next { s with rsp := some (.ok (.level n.toNat)) }) ∧
  (∀ (r : Byte) (s : State), r ∈ fanTable → ∃ l : Byte,
    exec (.decfan r) s = .next { s with rsp := some (.ok (.level l.toNat)) } ∧
    exec (.encfan l) s = .next { s with rsp := some (.ok (.fanRaw r)) }) ∧
  (∀ (r : Byte) (s : State), r ∉ fanTable →
    exec (.decfan r) s = .next { s with rsp := some (.ok (.level 0)) } ∧
    exec (.encfan 0) s = .next { s with rsp := some (.fault .fanLevelRange) })

/-- R204: DECSEL answers eight flags, each true exactly when its bit is 1, the power flag's of weight
1 and the service reminder's of weight 128, and changes nothing else. -/
def Obligations.DecselAnswersFlags : Prop :=
  (∀ r x y z u v : Byte,
    decode (.req52 (0xA#4 ++ r ++ x ++ y ++ z ++ u ++ v)) = .ok (.decsel r)) ∧
  (∀ (r : Byte) (s : State), exec (.decsel r) s = .next { s with rsp := some (.ok (.select
    { power := decide (r &&& 0x01 ≠ 0), co2Adjust := decide (r &&& 0x02 ≠ 0),
      rhAdjust := decide (r &&& 0x04 ≠ 0), heating := decide (r &&& 0x08 ≠ 0),
      filterGuard := decide (r &&& 0x10 ≠ 0), heatingInd := decide (r &&& 0x20 ≠ 0),
      faultInd := decide (r &&& 0x40 ≠ 0), serviceReminder := decide (r &&& 0x80 ≠ 0) })) })

/-- R206: DECPRG answers the low nibble as a number, and the four members of bits 4 to 7, and changes
nothing else. -/
def Obligations.DecprgAnswersFields : Prop :=
  (∀ r x y z u v : Byte,
    decode (.req52 (0xB#4 ++ r ++ x ++ y ++ z ++ u ++ v)) = .ok (.decprg r)) ∧
  (∀ (r : Byte) (s : State), exec (.decprg r) s = .next { s with rsp := some (.ok (.program
    { intervalMin := BitVec.ofNat 4 (r.toNat % 16), humiditySeeker := decide (r &&& 0x10 ≠ 0),
      boostSwitch := if r &&& 0x20 ≠ 0 then .boost else .fireplace,
      radiator := if r &&& 0x40 ≠ 0 then .water else .electric,
      cascadeAdjust := decide (r &&& 0x80 ≠ 0) })) })

/-- R208: DECPRG2 answers Always exactly for an odd byte, whatever bits 1 to 7 are, and changes
nothing else. -/
def Obligations.Decprg2AnswersMode : Prop :=
  (∀ r x y z u v : Byte,
    decode (.req52 (0xC#4 ++ r ++ x ++ y ++ z ++ u ++ v)) = .ok (.decprg2 r)) ∧
  (∀ (r : Byte) (s : State), exec (.decprg2 r) s = .next { s with rsp := some (.ok (.program2
    { maxSpeedLimit := if r.toNat % 2 = 1 then .always else .withAdjustment })) })

/-- R211: the decoded value of a variable is what the request of its kind answers for the raw byte;
it depends on the code through its kind alone. -/
def Obligations.DecodedValueFollowsKind : Prop :=
  (∀ (c raw : Byte) (s : State),
    match (registryEntry s.cfg c).kind, decodeValue s.cfg c raw with
    | .opaqueRaw, .opaqueRaw x => x = raw
    | .direct, .direct x => x = raw
    | .temperature, .temperature d =>
      exec (.dectemp raw) s = .next { s with rsp := some (.ok (.temperature d)) }
    | .fanSpeed, .fanSpeed l => exec (.decfan raw) s = .next { s with rsp := some (.ok (.level l)) }
    | .select, .select f => exec (.decsel raw) s = .next { s with rsp := some (.ok (.select f)) }
    | .program, .program f => exec (.decprg raw) s = .next { s with rsp := some (.ok (.program f)) }
    | .program2, .program2 f =>
      exec (.decprg2 raw) s = .next { s with rsp := some (.ok (.program2 f)) }
    | _, _ => False) ∧
  (∀ (c d raw : Byte) (cfg : Config), (registryEntry cfg c).kind = (registryEntry cfg d).kind →
    decodeValue cfg c raw = decodeValue cfg d raw)

/-! ## SYNC -/

/-- With fewer than five bytes pending, PUSHB appends the byte, answers `Ok`, and changes nothing
else (41_framesync sections 1 and 2). -/
def Obligations.PushbFillsWindow : Prop :=
  (∀ b x y z u v : Byte,
    decode (.req52 (0x3#4 ++ b ++ x ++ y ++ z ++ u ++ v)) = .ok (.pushb b)) ∧
  (∀ (b : Byte) (s : State), s.win.length < 5 →
    exec (.pushb b) s = .next { s with win := s.win ++ [b], rsp := some (.ok .empty) })

/-- With five bytes pending whose sum is not the pushed byte, PUSHB drops exactly the oldest, emits
one ByteDropped with it, the recomputed sum and the pushed byte, answers `Ok`, and changes nothing
else (41_framesync section 1, 60_exceptions section 2; what the event carries is the spec's decision
D11). -/
def Obligations.PushbDropsOldestByte : Prop :=
  ∀ (w0 w1 w2 w3 w4 b e : Byte) (s : State), s.win = [w0, w1, w2, w3, w4] →
    e.toNat = (w0.toNat + w1.toNat + w2.toNat + w3.toNat + w4.toNat) % 256 → e ≠ b →
    exec (.pushb b) s = .next { s with
      win := [w1, w2, w3, w4, b], rsp := some (.ok .empty), evs := s.evs ++ [.byteDropped w0 e b] }

/-- With five bytes pending whose sum is the pushed byte, PUSHB clears the window, emits
FrameAccepted and answers `Ok`, and the rest of its effect is the meaning of the telegram's row of
the opcode table, whatever the domain (41_framesync sections 1 and 2, 42_dispatch section 1). -/
def Obligations.PushbAcceptsWellFormedWindow : Prop :=
  ∀ (w0 w1 w2 w3 w4 b : Byte) (s : State), s.win = [w0, w1, w2, w3, w4] →
    b.toNat = (w0.toNat + w1.toNat + w2.toNat + w3.toNat + w4.toNat) % 256 →
    ∃ i, decodeBytes [w0, w1, w2, w3, w4, b] = .ok i ∧
      exec (.pushb b) s = exec i { s with
        win := [], rsp := some (.ok .empty),
        evs := s.evs ++ [.frameAccepted ⟨w0, w1, w2, w3, w4, b⟩] } ∧
      ∃ t, exec (.pushb b) s = .next t ∧ t.win = [] ∧ t.rsp = some (.ok .empty) ∧
        t.cfg = s.cfg ∧ t.inbox = s.inbox

/-- PUSHB emits one of five lists of events and no other (60_exceptions section 2; the order is the
spec's decision D12). -/
def Obligations.PushbEventLists : Prop :=
  ∀ (b : Byte) (s t : State), exec (.pushb b) s = .next t →
    ∃ es, t.evs = s.evs ++ es ∧
      (es = [] ∨ (∃ d e r, es = [.byteDropped d e r]) ∨
        ∃ tg, es = [.frameAccepted tg] ∨
          (∃ c r v, es = [.frameAccepted tg, .variableUpdated c r v]) ∨
          (∃ a r d, es = [.frameAccepted tg, .rawTraffic a r d]))

/-- The synchronizer's event is decided by the window's length and the checksum alone, and so is the
length it leaves; from an empty window five pushes are silent (41_framesync section 1, an inference
the spec marks as its own). -/
def Obligations.SyncEventByWindowLength : Prop :=
  (∀ (win : List Byte) (b : Byte), win.length ≤ 5 → ∃ w ev, syncStep win b = some (w, ev) ∧
    (ev = none ↔ win.length < 5) ∧
    (win.length < 5 → w.length = win.length + 1) ∧
    (win.length = 5 → (validate6 (win ++ [b]) ≠ none →
        w = [] ∧ ∃ t, ev = some (.frameAccepted t) ∧ pack t = win ++ [b]) ∧
      (validate6 (win ++ [b]) = none →
        w.length = 5 ∧ ∃ d e r, ev = some (.byteDropped d e r) ∧ win ++ [b] = d :: w))) ∧
  (∀ (bs : List Byte) (s : State), s.win = [] → bs.length ≤ 5 →
    ∃ t, pushBatch bs s = .next t ∧ t.win = bs ∧ t.evs = s.evs)

/-- Pushing a stream gives exactly the events and leaves exactly the window of the greedy
left-to-right scan for a well-formed six-byte window (41_framesync section 1, an inference the spec
marks as its own). -/
def Obligations.StreamIsGreedyScan : Prop :=
  (∀ xs : List Byte, xs.length < 6 → scan xs = ([], xs)) ∧
  (∀ (b0 b1 b2 b3 b4 b5 : Byte) (rest : List Byte),
    b5.toNat = (b0.toNat + b1.toNat + b2.toNat + b3.toNat + b4.toNat) % 256 →
    scan (b0 :: b1 :: b2 :: b3 :: b4 :: b5 :: rest) =
      (.frameAccepted ⟨b0, b1, b2, b3, b4, b5⟩ :: (scan rest).1, (scan rest).2)) ∧
  (∀ (b0 b1 b2 b3 b4 b5 e : Byte) (rest : List Byte),
    e.toNat = (b0.toNat + b1.toNat + b2.toNat + b3.toNat + b4.toNat) % 256 → e ≠ b5 →
    scan (b0 :: b1 :: b2 :: b3 :: b4 :: b5 :: rest) =
      (.byteDropped b0 e b5 :: (scan (b1 :: b2 :: b3 :: b4 :: b5 :: rest)).1,
        (scan (b1 :: b2 :: b3 :: b4 :: b5 :: rest)).2)) ∧
  (∀ (bs : List Byte) (s : State), s.win.length ≤ 5 → ∃ t, pushBatch bs s = .next t ∧
    t.win = (scan (s.win ++ bs)).2 ∧
    syncEvents t.evs = syncEvents s.evs ++ (scan (s.win ++ bs)).1)

/-- Every pushed byte is, in the order of arrival, a byte of one accepted telegram, the dropped byte
of one ByteDropped, or still in the window; so `l0 + n = 6·A + D + l1` (41_framesync section 1, an
inference the spec marks as its own). -/
def Obligations.EveryPushedByteIsAccounted : Prop :=
  ∀ (bs : List Byte) (s : State), s.win.length ≤ 5 → ∃ t es, pushBatch bs s = .next t ∧
    t.evs = s.evs ++ es ∧ s.win ++ bs = es.flatMap eventBytes ++ t.win ∧
    s.win.length + bs.length = 6 * acceptCount es + dropCount es + t.win.length

/-- R149: N garbage bytes and then a well-formed telegram, no window that starts in the garbage being
well formed, give the garbage bytes dropped in order and then the telegram accepted, with the window
empty; up to push N + 5 there are drops only, the first at push 6, and the accept comes at push
N + 6. -/
def Obligations.GarbageThenFrame : Prop :=
  ∀ (g f : List Byte) (tg : Telegram) (s : State), s.win = [] → validate6 f = some tg →
    (∀ i, i < g.length → validate6 (((g ++ f).drop i).take 6) = none) →
    (∃ t ds, pushBatch (g ++ f) s = .next t ∧ t.win = [] ∧
      syncEvents t.evs = syncEvents s.evs ++ ds ++ [.frameAccepted tg] ∧
      dropCount ds = g.length ∧ acceptCount ds = 0 ∧ ds.flatMap eventBytes = g) ∧
    (∀ k, k ≤ g.length + 5 → ∃ t, pushBatch ((g ++ f).take k) s = .next t ∧
      acceptCount t.evs = acceptCount s.evs ∧ dropCount t.evs = dropCount s.evs + (k - 5))

/-- A batch is the left fold of PUSHB with the events concatenated; how a stream is cut into batches
does not matter, and an empty batch does nothing (41_framesync section 2; the spec's decision D23). -/
def Obligations.BatchIsFoldOfPushes : Prop :=
  (∀ s : State, pushBatch [] s = .next s) ∧
  (∀ (b : Byte) (s : State), pushBatch [b] s = exec (.pushb b) s) ∧
  (∀ (as bs : List Byte) (s t : State), pushBatch as s = .next t →
    pushBatch (as ++ bs) s = pushBatch bs t) ∧
  (∀ (bs : List Byte) (es : List Event) (s t : State),
    pushBatch bs { s with evs := [] } = .next t →
    pushBatch bs { s with evs := es } = .next { t with evs := es ++ t.evs })

/-- A run of as many steps as the host has pushes pending leaves the window, the tables and the rest
of the host's list as the batch does (20_memory section 6; the host's list is the model's, log 1). -/
def Obligations.RunOfPushRequestsIsBatch : Prop :=
  ∀ (bs : List Byte) (rest : List HostInput) (s t : State), s.inbox = bs.map pushInput ++ rest →
    pushBatch bs s = .next t → ∃ u, Host.Core.run Sys2Proof.core bs.length s = .next u ∧
      u = { t with inbox := rest, rsp := u.rsp, evs := u.evs }

/-- A run of 0x00, 0x40, 0x80 or 0xC0 is accepted as a telegram of another domain every six bytes; a
run of any other byte is dropped byte by byte for ever (41_framesync section 3, an inference the spec
marks as its own). -/
def Obligations.ConstantStreams : Prop :=
  (∀ (x : Byte) (s : State), x = 0x00 ∨ x = 0x40 ∨ x = 0x80 ∨ x = 0xC0 → s.win = [] →
    (∃ t, pushBatch (List.replicate 6 x) s = .next t ∧ t.win = [] ∧ t.var = s.var ∧
      t.evs = s.evs ++ [.frameAccepted ⟨x, x, x, x, x, x⟩,
        .rawTraffic x x (describe s.cfg ⟨x, x, x, x, x, x⟩)]) ∧
    ∀ n, ∃ t, pushBatch (List.replicate (6 * n) x) s = .next t ∧ t.win = [] ∧ t.var = s.var ∧
      acceptCount t.evs = acceptCount s.evs + n ∧ dropCount t.evs = dropCount s.evs) ∧
  (∀ (x : Byte) (s : State), x ≠ 0x00 → x ≠ 0x40 → x ≠ 0x80 → x ≠ 0xC0 → s.win = [] →
    ∀ n, ∃ t, pushBatch (List.replicate n x) s = .next t ∧
      t.win = List.replicate (min n 5) x ∧ t.var = s.var ∧ t.traf = s.traf ∧
      acceptCount t.evs = acceptCount s.evs ∧ dropCount t.evs = dropCount s.evs + (n - 5))

/-! ## DISP -/

/-- A telegram of another domain is counted in the traffic table and reported as RawTraffic with its
poll-or-report description, whatever its receiver; it writes no variable and nothing else (42_dispatch
section 1). -/
def Obligations.TgRawReportsTraffic : Prop :=
  ∀ (d a r c v k : Byte) (s : State), d ≠ 1 → ∃ t, exec (.tgRaw d a r c v k) s = .next t ∧
    TrafficCounted s.cfg a r s.traf t.traf ∧
    t = { s with traf := t.traf, evs := s.evs ++ [.rawTraffic a r
      (if c = 0 then .poll v (registryEntry s.cfg v).kind (registryEntry s.cfg v).name
       else .report c (registryEntry s.cfg c).kind (registryEntry s.cfg c).name v)] }

/-- An application report addressed to the local receiver set is counted, stores its value under its
code, updates the code's counter and emits the decoded value; addressed elsewhere it is counted and
nothing else happens (42_dispatch section 1; that a new entry's counter starts from 0 is the spec's
decision D9, that an unaddressed one has no event its D28). -/
def Obligations.TgReportUpdatesLocalVariable : Prop :=
  ∀ (a r c v k : Byte) (s : State), ∃ t, exec (.tgReport a r c v k) s = .next t ∧
    TrafficCounted s.cfg a r s.traf t.traf ∧
    (LocalReceiver s.cfg r →
      tableGet t.var c = some ⟨v, incCounter s.cfg (varCount s.var c)⟩ ∧
      (∀ c', c' ≠ c → tableGet t.var c' = tableGet s.var c') ∧
      t = { s with var := t.var, traf := t.traf,
                   evs := s.evs ++ [.variableUpdated c v (decodeValue s.cfg c v)] }) ∧
    (¬ LocalReceiver s.cfg r → t = { s with traf := t.traf })

/-- An application poll addressed to the local receiver set stores the polled code under code 0x00
and emits an update of code 0x00; the entry of the polled code, unless that is 0x00 itself, is not
touched; addressed elsewhere it is counted only (42_dispatch section 1; the spec's decision D13, log
11). -/
def Obligations.TgPollStoresPolledCode : Prop :=
  ∀ (a r v k : Byte) (s : State), ∃ t, exec (.tgPoll a r v k) s = .next t ∧
    TrafficCounted s.cfg a r s.traf t.traf ∧
    (v ≠ 0 → tableGet t.var v = tableGet s.var v) ∧
    (LocalReceiver s.cfg r →
      tableGet t.var 0 = some ⟨v, incCounter s.cfg (varCount s.var 0)⟩ ∧
      (∀ c', c' ≠ 0 → tableGet t.var c' = tableGet s.var c') ∧
      t = { s with var := t.var, traf := t.traf,
                   evs := s.evs ++ [.variableUpdated 0 v (decodeValue s.cfg 0 v)] }) ∧
    (¬ LocalReceiver s.cfg r → t = { s with traf := t.traf })

/-- R164: the variable table is written exactly for telegrams of domain 1 addressed to the local
receiver set, at the command's entry; no instruction but these and the PUSHB that accepts one writes
it. -/
def Obligations.VariableWrittenExactlyWhenLocal : Prop :=
  (∀ (i : Instr) (tg : Telegram) (s t : State), i.telegram = some tg → exec i s = .next t →
    (tg.domain = 1 ∧ LocalReceiver s.cfg tg.receiver →
      (tableGet t.var tg.command).map VarEntry.raw = some tg.value ∧
      ∀ c, c ≠ tg.command → tableGet t.var c = tableGet s.var c) ∧
    (¬ (tg.domain = 1 ∧ LocalReceiver s.cfg tg.receiver) → t.var = s.var)) ∧
  (∀ (i : Instr) (s t : State), i.telegram = none → exec i s = .next t → t.var ≠ s.var →
    ∃ b tg, i = .pushb b ∧ validate6 (s.win ++ [b]) = some tg ∧ tg.domain = 1 ∧
      LocalReceiver s.cfg tg.receiver)

/-- RDVAR answers the entry of the code, or not seen with zeros, and changes nothing else; in a state
that meets the invariant a seen entry has counted at least once (42_dispatch section 2; the zeros are
the spec's decision D15). -/
def Obligations.RdvarAnswersEntry : Prop :=
  (∀ c x y z u v : Byte,
    decode (.req52 (0xD#4 ++ c ++ x ++ y ++ z ++ u ++ v)) = .ok (.rdvar c)) ∧
  (∀ (c : Byte) (s : State), tableGet s.var c = none →
    exec (.rdvar c) s = .next { s with rsp := some (.ok (.variable false 0 0)) }) ∧
  (∀ (c : Byte) (s : State) (e : VarEntry), tableGet s.var c = some e →
    exec (.rdvar c) s = .next { s with rsp := some (.ok (.variable true e.raw e.cnt)) }) ∧
  (∀ (c raw : Byte) (n : Nat) (s t : State), Inv s → exec (.rdvar c) s = .next t →
    t.rsp = some (.ok (.variable true raw n)) → 1 ≤ n)

/-- RDTRAF answers the entry of the address, or not seen with zeros, and changes nothing else; in a
state that meets the invariant a seen entry has counted at least once (42_dispatch section 2; the
zeros are the spec's decision D15). -/
def Obligations.RdtrafAnswersEntry : Prop :=
  (∀ a x y z u v : Byte,
    decode (.req52 (0xE#4 ++ a ++ x ++ y ++ z ++ u ++ v)) = .ok (.rdtraf a)) ∧
  (∀ (a : Byte) (s : State), tableGet s.traf a = none →
    exec (.rdtraf a) s = .next { s with rsp := some (.ok (.traffic false 0 0)) }) ∧
  (∀ (a : Byte) (s : State) (e : TrafEntry), tableGet s.traf a = some e →
    exec (.rdtraf a) s = .next { s with rsp := some (.ok (.traffic true e.tx e.rx)) }) ∧
  (∀ (a : Byte) (m n : Nat) (s t : State), Inv s → exec (.rdtraf a) s = .next t →
    t.rsp = some (.ok (.traffic true m n)) → 1 ≤ m + n)

/-- With unbounded counters and the traffic table in canonical form, the sum of all `tx` and the sum
of all `rx` each go up by the number of telegrams accepted, over any stream (42_dispatch section 2, an
inference the spec marks as its own). -/
def Obligations.TrafficTotalsCountAccepts : Prop :=
  ∀ (bs : List Byte) (s t : State), s.cfg.cntW = none → tableWf s.traf →
    pushBatch bs s = .next t →
      sumTx t.traf + acceptCount s.evs = sumTx s.traf + acceptCount t.evs ∧
      sumRx t.traf + acceptCount s.evs = sumRx s.traf + acceptCount t.evs

/-! ## Faults, counters, purity, the whole machine -/

/-- The two contract faults: the response is Fault(reason), no event is emitted and nothing else
changes; no other request answers a fault (60_exceptions section 1; that each is a response of a
running machine and not a stop is log 7). -/
def Obligations.ContractFaultsChangeNothing : Prop :=
  (∀ p q x y z u : Byte,
    decode (.req52 (0xF#4 ++ p ++ q ++ x ++ y ++ z ++ u)) = .ok .reservedF) ∧
  (∀ s : State, exec .reservedF s = .next { s with rsp := some (.fault .illegalOp) }) ∧
  (∀ (i : Instr) (s t : State) (r : ContractFault), s.rsp = none → exec i s = .next t →
    t.rsp = some (.fault r) →
      t = { s with rsp := t.rsp } ∧
      ((r = .illegalOp ∧ i = .reservedF) ∨
        (r = .fanLevelRange ∧ ∃ n : Byte, i = .encfan n ∧ (n.toNat = 0 ∨ 9 ≤ n.toNat))))

/-- A counter goes up by exactly 1, or stays at the greatest value of a finite width; no instruction
removes an entry or lowers a counter (10_state section 4; the width and saturation are the spec's
decisions D8 and D9). -/
def Obligations.CountersOnlyRise : Prop :=
  (∀ (c : Config) (n : Nat), c.cntW = none → incCounter c n = n + 1) ∧
  (∀ (c : Config) (w n : Nat), c.cntW = some w → n < 2 ^ w - 1 → incCounter c n = n + 1) ∧
  (∀ (c : Config) (w : Nat), c.cntW = some w → incCounter c (2 ^ w - 1) = 2 ^ w - 1) ∧
  (∀ (i : Instr) (s t : State), exec i s = .next t →
    (∀ c e, tableGet s.var c = some e → ∃ e', tableGet t.var c = some e' ∧
      (e'.cnt = e.cnt ∨ e'.cnt = incCounter s.cfg e.cnt)) ∧
    (∀ a e, tableGet s.traf a = some e → ∃ e', tableGet t.traf a = some e' ∧
      (e'.tx = e.tx ∨ e'.tx = incCounter s.cfg e.tx) ∧
      (e'.rx = e.rx ∨ e'.rx = incCounter s.cfg e.rx)))

/-- Every request but PUSHB writes nothing but its response, answers the same when repeated, and reads
no state but, for RDVAR and RDTRAF, one table entry (20_memory section 4). A repeated PUSHB never
leaves the model's State as the first one left it. There State counts its field `evs`, the model's
form of the event channel (log 2, DESIGN CHOICE), to which exec appends: the window and the tables
alone may stay as they were, as when PUSHB 0x01 drops a byte of a window of five 0x01 (41_framesync
section 3). -/
def Obligations.PureRequestsChangeNothing : Prop :=
  (∀ (i : Instr) (s : State), isPure i = true → ∃ t, exec i s = .next t ∧
    t = { s with rsp := t.rsp } ∧ exec i t = .next t) ∧
  (∀ (i : Instr) (s s' t t' : State), isPure i = true → s.cfg = s'.cfg →
    (∀ c, i = .rdvar c → tableGet s.var c = tableGet s'.var c) →
    (∀ a, i = .rdtraf a → tableGet s.traf a = tableGet s'.traf a) →
    exec i s = .next t → exec i s' = .next t' → t.rsp = t'.rsp) ∧
  (∀ (b : Byte) (s t : State), exec (.pushb b) s = .next t → exec (.pushb b) t ≠ .next t) ∧
  (∀ i : Instr, isRequest i = true → isPure i = false → ∃ b, i = .pushb b)

/-- Every step keeps the invariant of the resting state: at most five pending bytes, canonical
tables, a legal configuration, counters that fit and have counted. -/
def Obligations.StepKeepsInvariant : Prop :=
  ∀ s t : State, Inv s → step s = .next t → Inv t

/-- The state after reset meets the invariant. That its configuration is legal rests on the model's
choices of logs 4 to 6. -/
def Obligations.ResetMeetsInvariant : Prop := Inv State.reset

/-- From a state that meets the invariant the machine never stops, and every pending request is taken
and answered in one step (60_exceptions section 2, an inference the spec marks as its own; the answer
to a contract fault is log 7). -/
def Obligations.RunNeverStops : Prop :=
  (∀ s : State, Inv s → ∀ n, ∃ t, Host.Core.run Sys2Proof.core n s = .next t) ∧
  (∀ (s : State) (w : BitVec 52) (rest : List HostInput), Inv s → s.inbox = .request w :: rest →
    ∃ t r, step s = .next t ∧ t.rsp = some r ∧ t.inbox = rest)

/-- No step changes the configuration: not a request, not a reset (10_state section 3, 20_memory
section 6). -/
def Obligations.ConfigurationNeverChanges : Prop :=
  ∀ (n : Nat) (s t : State), Host.Core.run Sys2Proof.core n s = .next t → t.cfg = s.cfg
end

