-- ==== Sys2Proof/Laws/Checksum.lean ====
section
/-! SUPPORT. The checksum as a number and as wrapping additions (40_codec R120), and validity. -/

namespace Sys2Proof.Machine

theorem checksum5_toNat (b0 b1 b2 b3 b4 : Byte) : (checksum5 b0 b1 b2 b3 b4).toNat =
    (b0.toNat + b1.toNat + b2.toNat + b3.toNat + b4.toNat) % 256 := by
  simp [checksum5]

/-- The checksum in any order of 8-bit wrapping additions (40_codec R120). -/
theorem checksum5_eq_add (b0 b1 b2 b3 b4 : Byte) :
    checksum5 b0 b1 b2 b3 b4 = b0 + b1 + b2 + b3 + b4 := by
  apply BitVec.eq_of_toNat_eq
  simp [checksum5_toNat, BitVec.toNat_add]

/-- A byte is the checksum exactly when its number is the sum mod 256. -/
theorem eq_checksum5_iff (b0 b1 b2 b3 b4 k : Byte) : k = checksum5 b0 b1 b2 b3 b4 ↔
    k.toNat = (b0.toNat + b1.toNat + b2.toNat + b3.toNat + b4.toNat) % 256 := by
  rw [← checksum5_toNat, BitVec.toNat_inj]

/-- Validity of six bytes (40_codec R125). -/
theorem validate6_six (b0 b1 b2 b3 b4 b5 : Byte) : validate6 [b0, b1, b2, b3, b4, b5] =
    if b5 = checksum5 b0 b1 b2 b3 b4 then some ⟨b0, b1, b2, b3, b4, b5⟩ else none := rfl

/-- What passes validation is six bytes, the last the checksum of the rest. -/
theorem validate6_some {f : List Byte} {t : Telegram} (h : validate6 f = some t) :
    f = pack t ∧ t.checksum = telegramSum t := by
  unfold validate6 at h
  split at h
  · rename_i u hu
    split at h
    · rename_i hw
      cases h
      refine ⟨?_, hw⟩
      unfold unpack at hu
      split at hu
      · cases hu; rfl
      · cases hu
    · cases h
  · cases h

@[simp] theorem unpack_pack (t : Telegram) : unpack (pack t) = some t := rfl

end Sys2Proof.Machine
end

