-- ==== Sys2Proof/Laws/Encoding.lean ====
section
/-! SUPPORT. The fields of a request word and of a telegram's 48-bit pattern: what is placed is what
is read, and a word is its fields. -/

namespace Sys2Proof

/-- A field above the low part of a concatenation is a field of the high part. -/
theorem extract_append_high {v w s l : Nat} (x : BitVec v) (y : BitVec w) (h : w ≤ s) :
    (x ++ y).extractLsb' s l = x.extractLsb' (s - w) l :=
  BitVec.extractLsb'_append_eq_of_le h

section request
variable (op : BitVec 4) (a0 a1 a2 a3 a4 a5 : Byte)

@[simp] theorem requestOp_requestWord : requestOp (requestWord op a0 a1 a2 a3 a4 a5) = op := by
  unfold requestOp requestWord
  rw [extract_append_high _ _ (by decide), extract_append_high _ _ (by decide),
    extract_append_high _ _ (by decide), extract_append_high _ _ (by decide),
    extract_append_high _ _ (by decide), extract_append_high _ _ (by decide)]
  exact BitVec.extractLsb'_eq_self

@[simp] theorem requestOperand_requestWord_0 :
    requestOperand (requestWord op a0 a1 a2 a3 a4 a5) 0 = a0 := by
  unfold requestOperand requestWord
  rw [extract_append_high _ _ (by decide), extract_append_high _ _ (by decide),
    extract_append_high _ _ (by decide), extract_append_high _ _ (by decide),
    extract_append_high _ _ (by decide)]
  exact BitVec.extractLsb'_append_eq_right

@[simp] theorem requestOperand_requestWord_1 :
    requestOperand (requestWord op a0 a1 a2 a3 a4 a5) 1 = a1 := by
  unfold requestOperand requestWord
  rw [extract_append_high _ _ (by decide), extract_append_high _ _ (by decide),
    extract_append_high _ _ (by decide), extract_append_high _ _ (by decide)]
  exact BitVec.extractLsb'_append_eq_right

@[simp] theorem requestOperand_requestWord_2 :
    requestOperand (requestWord op a0 a1 a2 a3 a4 a5) 2 = a2 := by
  unfold requestOperand requestWord
  rw [extract_append_high _ _ (by decide), extract_append_high _ _ (by decide),
    extract_append_high _ _ (by decide)]
  exact BitVec.extractLsb'_append_eq_right

@[simp] theorem requestOperand_requestWord_3 :
    requestOperand (requestWord op a0 a1 a2 a3 a4 a5) 3 = a3 := by
  unfold requestOperand requestWord
  rw [extract_append_high _ _ (by decide), extract_append_high _ _ (by decide)]
  exact BitVec.extractLsb'_append_eq_right

@[simp] theorem requestOperand_requestWord_4 :
    requestOperand (requestWord op a0 a1 a2 a3 a4 a5) 4 = a4 := by
  unfold requestOperand requestWord
  rw [extract_append_high _ _ (by decide)]
  exact BitVec.extractLsb'_append_eq_right

@[simp] theorem requestOperand_requestWord_5 :
    requestOperand (requestWord op a0 a1 a2 a3 a4 a5) 5 = a5 := by
  unfold requestOperand requestWord
  exact BitVec.extractLsb'_append_eq_right

end request

/-- A request word is its seven fields. -/
theorem requestWord_fields (w : BitVec 52) :
    requestWord (requestOp w) (requestOperand w 0) (requestOperand w 1) (requestOperand w 2)
      (requestOperand w 3) (requestOperand w 4) (requestOperand w 5) = w := by
  unfold requestOp requestOperand requestWord
  apply BitVec.eq_of_getLsbD_eq
  intro i hi
  simp only [BitVec.getLsbD_append, BitVec.getLsbD_extractLsb']
  interval_cases i <;> simp

/-- The telegram of the pattern of a telegram. -/
@[simp] theorem telegramOfWord_telegramWord (t : Telegram) :
    telegramOfWord (telegramWord t) = t := by
  obtain ⟨d, s, r, c, v, k⟩ := t
  unfold telegramOfWord telegramWord
  congr 1
  · rw [extract_append_high _ _ (by decide), extract_append_high _ _ (by decide),
      extract_append_high _ _ (by decide), extract_append_high _ _ (by decide),
      extract_append_high _ _ (by decide)]
    exact BitVec.extractLsb'_eq_self
  · rw [extract_append_high _ _ (by decide), extract_append_high _ _ (by decide),
      extract_append_high _ _ (by decide), extract_append_high _ _ (by decide)]
    exact BitVec.extractLsb'_append_eq_right
  · rw [extract_append_high _ _ (by decide), extract_append_high _ _ (by decide),
      extract_append_high _ _ (by decide)]
    exact BitVec.extractLsb'_append_eq_right
  · rw [extract_append_high _ _ (by decide), extract_append_high _ _ (by decide)]
    exact BitVec.extractLsb'_append_eq_right
  · rw [extract_append_high _ _ (by decide)]
    exact BitVec.extractLsb'_append_eq_right
  · exact BitVec.extractLsb'_append_eq_right

/-- A 48-bit pattern is its telegram's. -/
@[simp] theorem telegramWord_telegramOfWord (w : BitVec 48) :
    telegramWord (telegramOfWord w) = w := by
  unfold telegramWord telegramOfWord
  apply BitVec.eq_of_getLsbD_eq
  intro i hi
  simp only [BitVec.getLsbD_append, BitVec.getLsbD_extractLsb']
  interval_cases i <;> simp

/-- What classification answers: a telegram-class instruction of exactly that telegram, well formed;
or the bad checksum. -/
theorem classify_ok {t : Telegram} {i : Instr} (h : classify t = .ok i) :
    i.telegram = some t ∧ i.wellFormed = true ∧ t.checksum = Machine.telegramSum t := by
  obtain ⟨d, s, r, c, v, k⟩ := t
  unfold classify at h
  split at h
  · cases h
  · rename_i hk
    simp only [ne_eq, not_not] at hk
    split at h
    · rename_i hc
      obtain ⟨rfl, rfl⟩ := hc
      cases h
      refine ⟨rfl, ?_, hk⟩
      simpa [Instr.wellFormed, Instr.classOk, Instr.sumOk, Instr.telegram] using hk
    · rename_i hc
      split at h
      · rename_i hd
        simp only at hd hc
        subst hd
        cases h
        refine ⟨rfl, ?_, hk⟩
        simp only [true_and] at hc
        simpa [Instr.wellFormed, Instr.classOk, Instr.sumOk, Instr.telegram, hc] using hk
      · rename_i hd
        cases h
        refine ⟨rfl, ?_, hk⟩
        simp only at hd
        simpa [Instr.wellFormed, Instr.classOk, Instr.sumOk, Instr.telegram, hd] using hk

end Sys2Proof
end

