-- ==== Sys2Proof/Laws/State.lean ====
section
/-! SUPPORT. One lemma for each field and each update of the state: what the update leaves there. -/

namespace Sys2Proof.Machine

section respond
variable (p : Payload) (s : State)
@[simp] theorem respond_win : (respond p s).win = s.win := rfl
@[simp] theorem respond_var : (respond p s).var = s.var := rfl
@[simp] theorem respond_traf : (respond p s).traf = s.traf := rfl
@[simp] theorem respond_cfg : (respond p s).cfg = s.cfg := rfl
@[simp] theorem respond_inbox : (respond p s).inbox = s.inbox := rfl
@[simp] theorem respond_rsp : (respond p s).rsp = some (.ok p) := rfl
@[simp] theorem respond_evs : (respond p s).evs = s.evs := rfl
end respond

section raiseContractFault
variable (r : ContractFault) (s : State)
@[simp] theorem raiseContractFault_win : (raiseContractFault r s).win = s.win := rfl
@[simp] theorem raiseContractFault_var : (raiseContractFault r s).var = s.var := rfl
@[simp] theorem raiseContractFault_traf : (raiseContractFault r s).traf = s.traf := rfl
@[simp] theorem raiseContractFault_cfg : (raiseContractFault r s).cfg = s.cfg := rfl
@[simp] theorem raiseContractFault_inbox : (raiseContractFault r s).inbox = s.inbox := rfl
@[simp] theorem raiseContractFault_rsp : (raiseContractFault r s).rsp = some (.fault r) := rfl
@[simp] theorem raiseContractFault_evs : (raiseContractFault r s).evs = s.evs := rfl
end raiseContractFault

section emit
variable (e : Event) (s : State)
@[simp] theorem emit_win : (emit e s).win = s.win := rfl
@[simp] theorem emit_var : (emit e s).var = s.var := rfl
@[simp] theorem emit_traf : (emit e s).traf = s.traf := rfl
@[simp] theorem emit_cfg : (emit e s).cfg = s.cfg := rfl
@[simp] theorem emit_inbox : (emit e s).inbox = s.inbox := rfl
@[simp] theorem emit_rsp : (emit e s).rsp = s.rsp := rfl
@[simp] theorem emit_evs : (emit e s).evs = s.evs ++ [e] := rfl
end emit

section setWindow
variable (w : List Byte) (s : State)
@[simp] theorem setWindow_win : (setWindow w s).win = w := rfl
@[simp] theorem setWindow_var : (setWindow w s).var = s.var := rfl
@[simp] theorem setWindow_traf : (setWindow w s).traf = s.traf := rfl
@[simp] theorem setWindow_cfg : (setWindow w s).cfg = s.cfg := rfl
@[simp] theorem setWindow_inbox : (setWindow w s).inbox = s.inbox := rfl
@[simp] theorem setWindow_rsp : (setWindow w s).rsp = s.rsp := rfl
@[simp] theorem setWindow_evs : (setWindow w s).evs = s.evs := rfl
end setWindow

section setVar
variable (c : Byte) (e : VarEntry) (s : State)
@[simp] theorem setVar_win : (setVar c e s).win = s.win := rfl
@[simp] theorem setVar_var : (setVar c e s).var = tableSet s.var c e := rfl
@[simp] theorem setVar_traf : (setVar c e s).traf = s.traf := rfl
@[simp] theorem setVar_cfg : (setVar c e s).cfg = s.cfg := rfl
@[simp] theorem setVar_inbox : (setVar c e s).inbox = s.inbox := rfl
@[simp] theorem setVar_rsp : (setVar c e s).rsp = s.rsp := rfl
@[simp] theorem setVar_evs : (setVar c e s).evs = s.evs := rfl
end setVar

section setTraf
variable (a : Byte) (e : TrafEntry) (s : State)
@[simp] theorem setTraf_win : (setTraf a e s).win = s.win := rfl
@[simp] theorem setTraf_var : (setTraf a e s).var = s.var := rfl
@[simp] theorem setTraf_traf : (setTraf a e s).traf = tableSet s.traf a e := rfl
@[simp] theorem setTraf_cfg : (setTraf a e s).cfg = s.cfg := rfl
@[simp] theorem setTraf_inbox : (setTraf a e s).inbox = s.inbox := rfl
@[simp] theorem setTraf_rsp : (setTraf a e s).rsp = s.rsp := rfl
@[simp] theorem setTraf_evs : (setTraf a e s).evs = s.evs := rfl
end setTraf

section beginRequest
variable (rest : List HostInput) (s : State)
@[simp] theorem beginRequest_win : (beginRequest rest s).win = s.win := rfl
@[simp] theorem beginRequest_var : (beginRequest rest s).var = s.var := rfl
@[simp] theorem beginRequest_traf : (beginRequest rest s).traf = s.traf := rfl
@[simp] theorem beginRequest_cfg : (beginRequest rest s).cfg = s.cfg := rfl
@[simp] theorem beginRequest_inbox : (beginRequest rest s).inbox = rest := rfl
@[simp] theorem beginRequest_rsp : (beginRequest rest s).rsp = none := rfl
@[simp] theorem beginRequest_evs : (beginRequest rest s).evs = [] := rfl
end beginRequest

section idleStep
variable (s : State)
@[simp] theorem idleStep_win : (idleStep s).win = s.win := rfl
@[simp] theorem idleStep_var : (idleStep s).var = s.var := rfl
@[simp] theorem idleStep_traf : (idleStep s).traf = s.traf := rfl
@[simp] theorem idleStep_cfg : (idleStep s).cfg = s.cfg := rfl
@[simp] theorem idleStep_inbox : (idleStep s).inbox = s.inbox := rfl
@[simp] theorem idleStep_rsp : (idleStep s).rsp = none := rfl
@[simp] theorem idleStep_evs : (idleStep s).evs = [] := rfl
end idleStep

section resetStep
variable (rest : List HostInput) (s : State)
@[simp] theorem resetStep_win : (resetStep rest s).win = [] := rfl
@[simp] theorem resetStep_var : (resetStep rest s).var = [] := rfl
@[simp] theorem resetStep_traf : (resetStep rest s).traf = [] := rfl
@[simp] theorem resetStep_cfg : (resetStep rest s).cfg = s.cfg := rfl
@[simp] theorem resetStep_inbox : (resetStep rest s).inbox = rest := rfl
@[simp] theorem resetStep_rsp : (resetStep rest s).rsp = none := rfl
@[simp] theorem resetStep_evs : (resetStep rest s).evs = [] := rfl
end resetStep

end Sys2Proof.Machine
end

