-- ==== Sys2Proof/Laws/Table.lean ====
section
/-! SUPPORT. The laws of the tables: a read after a write, and that a write keeps the canonical form. -/

namespace Sys2Proof.Machine

variable {α : Type}

/-- A read after a write: the written entry at its index, every other index as before. -/
theorem tableGet_tableSet (t : List (Byte × α)) (i j : Byte) (x : α) :
    tableGet (tableSet t i x) j = if j = i then some x else tableGet t j := by
  induction t with
  | nil => simp [tableSet, tableGet]
  | cons h t ih =>
    obtain ⟨k, v⟩ := h
    by_cases hik : i = k
    · subst hik; simp only [tableSet, if_true, tableGet]; split <;> rfl
    · by_cases hlt : i < k
      · simp [tableSet, hik, hlt, tableGet]
      · by_cases hjk : j = k
        · subst hjk; simp [tableSet, hik, hlt, tableGet, Ne.symm hik]
        · simp [tableSet, hik, hlt, tableGet, hjk, ih]

@[simp] theorem tableGet_tableSet_same (t : List (Byte × α)) (i : Byte) (x : α) :
    tableGet (tableSet t i x) i = some x := by simp [tableGet_tableSet]

theorem tableGet_tableSet_other (t : List (Byte × α)) {i j : Byte} (x : α) (h : j ≠ i) :
    tableGet (tableSet t i x) j = tableGet t j := by simp [tableGet_tableSet, h]

/-- The indices of a table after a write: the old ones and the written one. -/
theorem mem_keys_tableSet (t : List (Byte × α)) (i : Byte) (x : α) (k : Byte) :
    k ∈ (tableSet t i x).map Prod.fst ↔ k = i ∨ k ∈ t.map Prod.fst := by
  induction t with
  | nil => simp [tableSet]
  | cons h t ih =>
    obtain ⟨k', v⟩ := h
    by_cases hik : i = k'
    · subst hik; simp [tableSet]
    · by_cases hlt : i < k'
      · simp [tableSet, hik, hlt]
      · simp only [tableSet, hik, hlt, if_false, List.map_cons, List.mem_cons, ih]
        tauto

/-- A write keeps the canonical form. -/
theorem tableSet_wf (t : List (Byte × α)) (i : Byte) (x : α) (h : tableWf t) :
    tableWf (tableSet t i x) := by
  induction t with
  | nil => simp [tableSet, tableWf]
  | cons e t ih =>
    obtain ⟨k, v⟩ := e
    simp only [tableWf, List.map_cons, List.pairwise_cons] at h
    by_cases hik : i = k
    · subst hik; simpa [tableSet, tableWf] using h
    · by_cases hlt : i < k
      · simp only [tableSet, hik, hlt, if_true, if_false, tableWf, List.map_cons,
          List.pairwise_cons]
        refine ⟨?_, h⟩
        intro a ha
        rcases List.mem_cons.1 ha with rfl | ha
        · exact hlt
        · exact BitVec.lt_trans hlt (h.1 a ha)
      · have hki : k < i := by bv_omega
        simp only [tableSet, hik, hlt, if_false, tableWf, List.map_cons, List.pairwise_cons]
        refine ⟨?_, ih h.2⟩
        intro a ha
        rcases (mem_keys_tableSet t i x a).1 ha with rfl | ha
        · exact hki
        · exact h.1 a ha

/-- A read finds only what is listed. -/
theorem mem_of_tableGet {t : List (Byte × α)} {i : Byte} {x : α} (h : tableGet t i = some x) :
    (i, x) ∈ t := by
  induction t with
  | nil => simp [tableGet] at h
  | cons e t ih =>
    obtain ⟨k, v⟩ := e
    by_cases hik : i = k
    · subst hik; simp [tableGet] at h; simp [h]
    · simp [tableGet, hik] at h; exact List.mem_cons_of_mem _ (ih h)

/-- In canonical form nothing below the first index is listed. -/
theorem tableGet_none_of_lt {t : List (Byte × α)} {i : Byte}
    (h : ∀ k ∈ t.map Prod.fst, i < k) : tableGet t i = none := by
  induction t with
  | nil => rfl
  | cons e t ih =>
    obtain ⟨k, v⟩ := e
    have hk : i < k := h k (by simp)
    have hne : i ≠ k := by rintro rfl; exact BitVec.lt_irrefl i hk
    simp only [tableGet, hne, if_false]
    exact ih fun k' hk' => h k' (by simp at hk' ⊢; tauto)

end Sys2Proof.Machine
end

