-- ==== Sys2Proof/Laws/Ops.lean ====
section
/-! SUPPORT. What each shared operation can do, said once: the counters, the traffic count, DISPATCH,
the synchronizer's step and PUSHB. -/

namespace Sys2Proof.Machine

/-! ## Counters -/

/-- An increment adds 1 or, at the greatest value of a finite width, nothing (10_state R31). -/
theorem incCounter_cases (c : Config) (n : Nat) :
    incCounter c n = n + 1 ∨ (incCounter c n = n ∧ ∃ w, c.cntW = some w ∧ 2 ^ w - 1 ≤ n) := by
  unfold incCounter
  split
  · exact .inl rfl
  · rename_i w hw
    split
    · exact .inr ⟨rfl, w, hw, ‹_›⟩
    · exact .inl rfl

theorem incCounter_unbounded {c : Config} (h : c.cntW = none) (n : Nat) :
    incCounter c n = n + 1 := by simp [incCounter, h]

theorem le_incCounter (c : Config) (n : Nat) : n ≤ incCounter c n := by
  rcases incCounter_cases c n with h | ⟨h, -⟩ <;> omega

/-- An increment of a value that fits fits. -/
theorem incCounter_fits {c : Config} {n : Nat} (h : counterFits c n) :
    counterFits c (incCounter c n) := by
  unfold counterFits at *
  split at h
  · trivial
  · rename_i w hw
    simp only [incCounter, hw]
    split <;> omega

theorem counterFits_zero (c : Config) : counterFits c 0 := by
  unfold counterFits; split
  · trivial
  · omega

/-- With a legal width a new counter reads 1 after its first update (42_dispatch R165). -/
theorem incCounter_zero_pos {c : Config} (h : c.cntW ≠ some 0) : 1 ≤ incCounter c 0 := by
  unfold incCounter
  split
  · omega
  · rename_i w hw
    have hw0 : w ≠ 0 := by rintro rfl; exact h hw
    have : 2 ≤ 2 ^ w := by
      calc 2 = 2 ^ 1 := rfl
        _ ≤ 2 ^ w := Nat.pow_le_pow_right (by decide) (by omega)
    split <;> omega

theorem bumpTx_eq (c : Config) (o : Option TrafEntry) :
    bumpTx c o = ⟨incCounter c (o.getD ⟨0, 0⟩).tx, (o.getD ⟨0, 0⟩).rx⟩ := by
  cases o <;> rfl

theorem bumpRx_eq (c : Config) (o : Option TrafEntry) :
    bumpRx c o = ⟨(o.getD ⟨0, 0⟩).tx, incCounter c (o.getD ⟨0, 0⟩).rx⟩ := by
  cases o <;> rfl

theorem bumpVar_eq (c : Config) (raw : Byte) (o : Option VarEntry) :
    bumpVar c raw o = ⟨raw, incCounter c ((o.map VarEntry.cnt).getD 0)⟩ := by
  cases o <;> rfl

/-! ## Step 1 of DISPATCH -/

section countTraffic
variable (t : Telegram) (s : State)
@[simp] theorem countTraffic_win : (countTraffic t s).win = s.win := rfl
@[simp] theorem countTraffic_var : (countTraffic t s).var = s.var := rfl
@[simp] theorem countTraffic_cfg : (countTraffic t s).cfg = s.cfg := rfl
@[simp] theorem countTraffic_inbox : (countTraffic t s).inbox = s.inbox := rfl
@[simp] theorem countTraffic_rsp : (countTraffic t s).rsp = s.rsp := rfl
@[simp] theorem countTraffic_evs : (countTraffic t s).evs = s.evs := rfl

/-- What step 1 does to the traffic table (42_dispatch R162). -/
theorem countTraffic_counted :
    TrafficCounted s.cfg t.sender t.receiver s.traf (countTraffic t s).traf := by
  intro a
  simp only [countTraffic, setTraf_traf, setTraf_cfg, tableGet_tableSet, bumpTx_eq, bumpRx_eq,
    trafCounts]
  by_cases h1 : a = t.sender <;> by_cases h2 : a = t.receiver
  · subst h1; simp [h2]
  · subst h1; simp [h2]
  · subst h2; simp [h1]
  · simp [h1, h2]

theorem countTraffic_wf (h : tableWf s.traf) : tableWf (countTraffic t s).traf := by
  simp only [countTraffic, setTraf_traf]
  exact tableSet_wf _ _ _ (tableSet_wf _ _ _ h)
end countTraffic

/-! ## DISPATCH -/

/-- The description of a poll (42_dispatch R167). -/
theorem describe_poll (c : Config) {t : Telegram} (h : t.command = 0) : describe c t =
    .poll t.value (registryEntry c t.value).kind (registryEntry c t.value).name :=
  if_pos h

/-- The description of a report (42_dispatch R167). -/
theorem describe_report (c : Config) {t : Telegram} (h : t.command ≠ 0) : describe c t =
    .report t.command (registryEntry c t.command).kind (registryEntry c t.command).name t.value :=
  if_neg h

theorem mem_localSet (c : Config) (r : Byte) : r ∈ localSet c ↔ LocalReceiver c r := by
  simp [localSet, LocalReceiver, addrPanel1, addrBcastPanels]

/-- The three paths of DISPATCH (42_dispatch R170). -/
theorem dispatchTelegram_cases (t : Telegram) (s : State) :
    (t.domain ≠ 1 ∧ dispatchTelegram t s =
      { s with traf := (countTraffic t s).traf,
               evs := s.evs ++ [.rawTraffic t.sender t.receiver (describe s.cfg t)] }) ∨
    (t.domain = 1 ∧ LocalReceiver s.cfg t.receiver ∧ dispatchTelegram t s =
      { s with traf := (countTraffic t s).traf,
               var := tableSet s.var t.command
                 ⟨t.value, incCounter s.cfg (varCount s.var t.command)⟩,
               evs := s.evs ++
                 [.variableUpdated t.command t.value (decodeValue s.cfg t.command t.value)] }) ∨
    (t.domain = 1 ∧ ¬ LocalReceiver s.cfg t.receiver ∧
      dispatchTelegram t s = { s with traf := (countTraffic t s).traf }) := by
  by_cases hd : t.domain = 1
  · by_cases hr : LocalReceiver s.cfg t.receiver
    · refine .inr (.inl ⟨hd, hr, ?_⟩)
      have hm : t.receiver ∈ localSet (countTraffic t s).cfg := (mem_localSet _ _).2 hr
      simp only [dispatchTelegram, isApp, domainApp, hd, not_true_eq_false, if_false, hm, if_true]
      simp only [updateVariable, bumpVar_eq]
      rfl
    · refine .inr (.inr ⟨hd, hr, ?_⟩)
      have hm : t.receiver ∉ localSet (countTraffic t s).cfg := fun h => hr ((mem_localSet _ _).1 h)
      simp only [dispatchTelegram, isApp, domainApp, hd, not_true_eq_false, if_false, hm]
      rfl
  · refine .inl ⟨hd, ?_⟩
    simp only [dispatchTelegram, isApp, domainApp, hd, not_false_eq_true, if_true]
    rfl

/-- What DISPATCH never touches: the window, the configuration, the host's list, the response. -/
theorem dispatchTelegram_frame (t : Telegram) (s : State) :
    (dispatchTelegram t s).win = s.win ∧ (dispatchTelegram t s).cfg = s.cfg ∧
    (dispatchTelegram t s).inbox = s.inbox ∧ (dispatchTelegram t s).rsp = s.rsp ∧
    (dispatchTelegram t s).traf = (countTraffic t s).traf := by
  rcases dispatchTelegram_cases t s with ⟨-, h⟩ | ⟨-, -, h⟩ | ⟨-, -, h⟩ <;> rw [h] <;>
    exact ⟨rfl, rfl, rfl, rfl, rfl⟩

/-! ## SYNC -/

/-- The two outcomes of an examined candidate (41_framesync R141, step 3). -/
theorem examine_cases (b0 b1 b2 b3 b4 b5 : Byte) :
    (b5 = checksum5 b0 b1 b2 b3 b4 ∧
      examine b0 b1 b2 b3 b4 b5 = ([], .frameAccepted ⟨b0, b1, b2, b3, b4, b5⟩)) ∨
    (b5 ≠ checksum5 b0 b1 b2 b3 b4 ∧ examine b0 b1 b2 b3 b4 b5 =
      ([b1, b2, b3, b4, b5], .byteDropped b0 (checksum5 b0 b1 b2 b3 b4) b5)) := by
  unfold examine
  by_cases h : checksum5 b0 b1 b2 b3 b4 = b5
  · exact .inl ⟨h.symm, by simp [h]⟩
  · exact .inr ⟨fun e => h e.symm, by simp [h]⟩

theorem syncStep_short (win : List Byte) (b : Byte) (h : win.length < 5) :
    syncStep win b = some (win ++ [b], none) := by
  simp only [syncStep, telegramLength, List.length_append, List.length_singleton]
  rw [if_pos (by omega)]

theorem syncStep_five (w0 w1 w2 w3 w4 b : Byte) : syncStep [w0, w1, w2, w3, w4] b =
    some ((examine w0 w1 w2 w3 w4 b).1, some (examine w0 w1 w2 w3 w4 b).2) := rfl

theorem length_five {l : List Byte} (h : l.length = 5) :
    ∃ w0 w1 w2 w3 w4, l = [w0, w1, w2, w3, w4] := by
  match l, h with
  | [w0, w1, w2, w3, w4], _ => exact ⟨w0, w1, w2, w3, w4, rfl⟩

/-- A window at rest is a short one or one of five bytes. -/
theorem window_cases {l : List Byte} (h : l.length ≤ 5) :
    l.length < 5 ∨ ∃ w0 w1 w2 w3 w4, l = [w0, w1, w2, w3, w4] := by
  rcases Nat.lt_or_eq_of_le h with h | h
  · exact .inl h
  · exact .inr (length_five h)

theorem syncStep_long (win : List Byte) (b : Byte) (h : 5 < win.length) :
    syncStep win b = none := by
  simp only [syncStep, telegramLength, List.length_append, List.length_singleton]
  rw [if_neg (by omega)]
  split
  · rename_i heq
    have := congrArg List.length heq
    simp at this; omega
  · rfl

/-- Everything PUSHB can do (41_framesync R146): fill, drop, accept and dispatch, or, on no window at
rest, the model's fault. -/
theorem execPushb_cases (b : Byte) (s : State) :
    (s.win.length < 5 ∧ execPushb b s = .next (respond .empty (setWindow (s.win ++ [b]) s))) ∨
    (∃ w0 w1 w2 w3 w4, s.win = [w0, w1, w2, w3, w4] ∧ b ≠ checksum5 w0 w1 w2 w3 w4 ∧
      execPushb b s = .next (respond .empty
        (emit (.byteDropped w0 (checksum5 w0 w1 w2 w3 w4) b) (setWindow [w1, w2, w3, w4, b] s)))) ∨
    (∃ w0 w1 w2 w3 w4, s.win = [w0, w1, w2, w3, w4] ∧ b = checksum5 w0 w1 w2 w3 w4 ∧
      execPushb b s = .next (dispatchTelegram ⟨w0, w1, w2, w3, w4, b⟩ (respond .empty
        (emit (.frameAccepted ⟨w0, w1, w2, w3, w4, b⟩) (setWindow [] s))))) ∨
    (5 < s.win.length ∧ execPushb b s = .fault .windowOverrun) := by
  by_cases hl : s.win.length ≤ 5
  · rcases window_cases hl with h | ⟨w0, w1, w2, w3, w4, h⟩
    · exact .inl ⟨h, by simp [execPushb, syncStep_short _ _ h]⟩
    · rcases examine_cases w0 w1 w2 w3 w4 b with ⟨hb, he⟩ | ⟨hb, he⟩
      · refine .inr (.inr (.inl ⟨w0, w1, w2, w3, w4, h, hb, ?_⟩))
        simp [execPushb, h, syncStep_five, he]
      · refine .inr (.inl ⟨w0, w1, w2, w3, w4, h, hb, ?_⟩)
        simp [execPushb, h, syncStep_five, he]
  · refine .inr (.inr (.inr ⟨by omega, ?_⟩))
    simp [execPushb, syncStep_long _ _ (by omega : 5 < s.win.length)]

/-- On a window at rest PUSHB answers a next state, at rest again, that keeps the configuration and
the host's list. -/
theorem execPushb_next (b : Byte) (s : State) (h : s.win.length ≤ 5) :
    ∃ t, execPushb b s = .next t ∧ t.win.length ≤ 5 ∧ t.cfg = s.cfg ∧ t.inbox = s.inbox ∧
      t.rsp = some (.ok .empty) := by
  rcases execPushb_cases b s with ⟨hl, he⟩ | ⟨w0, w1, w2, w3, w4, -, -, he⟩ |
    ⟨w0, w1, w2, w3, w4, -, -, he⟩ | ⟨hl, -⟩
  · exact ⟨_, he, by simp; omega, rfl, rfl, rfl⟩
  · exact ⟨_, he, by simp, rfl, rfl, rfl⟩
  · obtain ⟨h1, h2, h3, h4, -⟩ := dispatchTelegram_frame ⟨w0, w1, w2, w3, w4, b⟩ (respond .empty
        (emit (.frameAccepted ⟨w0, w1, w2, w3, w4, b⟩) (setWindow [] s)))
    exact ⟨_, he, by rw [h1]; simp, h2, h3, h4⟩
  · omega

end Sys2Proof.Machine
end

