-- ==== Sys2Proof/Laws/PerInstr.lean ====
section
/-! SUPPORT. The one law stated per instruction: the bits an encoding fixes are those of the row of
spec/opcode_table.json, its mask and its match. -/

namespace Sys2Proof.Laws

/-- The match of the row of a request (opcode_table.json, REQ52). -/
def requestMatch : Instr → BitVec 52
  | .cksum _ _ _ _ _ => 0x0000000000000
  | .encode _ _ _ _ => 0x1000000000000
  | .validate _ _ _ _ _ _ => 0x2000000000000
  | .pushb _ => 0x3000000000000
  | .bldset _ _ _ => 0x4000000000000
  | .bldpoll _ _ => 0x5000000000000
  | .reglook _ => 0x6000000000000
  | .dectemp _ => 0x7000000000000
  | .decfan _ => 0x8000000000000
  | .encfan _ => 0x9000000000000
  | .decsel _ => 0xA000000000000
  | .decprg _ => 0xB000000000000
  | .decprg2 _ => 0xC000000000000
  | .rdvar _ => 0xD000000000000
  | .rdtraf _ => 0xE000000000000
  | .reservedF => 0xF000000000000
  | .tgPoll _ _ _ _ => 0
  | .tgReport _ _ _ _ _ => 0
  | .tgRaw _ _ _ _ _ _ => 0

/-- The mask and the match of the row of a telegram class (opcode_table.json, TG48). -/
def telegramRow : Instr → BitVec 48 × BitVec 48
  | .tgPoll _ _ _ _ => (0xFF0000FF0000, 0x010000000000)
  | .tgReport _ _ _ _ _ => (0xFF0000000000, 0x010000000000)
  | .tgRaw _ _ _ _ _ _ => (0x000000000000, 0x000000000000)
  | .cksum _ _ _ _ _ => (0, 0)
  | .encode _ _ _ _ => (0, 0)
  | .validate _ _ _ _ _ _ => (0, 0)
  | .pushb _ => (0, 0)
  | .bldset _ _ _ => (0, 0)
  | .bldpoll _ _ => (0, 0)
  | .reglook _ => (0, 0)
  | .dectemp _ => (0, 0)
  | .decfan _ => (0, 0)
  | .encfan _ => (0, 0)
  | .decsel _ => (0, 0)
  | .decprg _ => (0, 0)
  | .decprg2 _ => (0, 0)
  | .rdvar _ => (0, 0)
  | .rdtraf _ => (0, 0)
  | .reservedF => (0, 0)

/-- The fixed bits of an instruction's encoding are its row's. -/
def EncodeMatchesRow.Statement (i : Instr) : Prop :=
  match encode i with
  | .req52 w => w &&& 0xF000000000000 = requestMatch i
  | .tg48 w => w &&& (telegramRow i).1 = (telegramRow i).2

/-- The op code is all that a request row's mask keeps. -/
theorem requestWord_and_mask (op : BitVec 4) (a0 a1 a2 a3 a4 a5 : Byte) :
    requestWord op a0 a1 a2 a3 a4 a5 &&& 0xF000000000000 = requestWord op 0 0 0 0 0 0 := by
  unfold requestWord
  apply BitVec.eq_of_getLsbD_eq
  intro i hi
  simp only [BitVec.getLsbD_and, BitVec.getLsbD_append]
  interval_cases i <;> simp

/-- The domain is all that the mask of TG.REPORT keeps. -/
theorem telegramWord_and_domain (t : Telegram) :
    telegramWord t &&& 0xFF0000000000 = telegramWord ⟨t.domain, 0, 0, 0, 0, 0⟩ := by
  unfold telegramWord
  apply BitVec.eq_of_getLsbD_eq
  intro i hi
  simp only [BitVec.getLsbD_and, BitVec.getLsbD_append]
  interval_cases i <;> simp

/-- The domain and the command are all that the mask of TG.POLL keeps. -/
theorem telegramWord_and_domain_command (t : Telegram) :
    telegramWord t &&& 0xFF0000FF0000 = telegramWord ⟨t.domain, 0, 0, t.command, 0, 0⟩ := by
  unfold telegramWord
  apply BitVec.eq_of_getLsbD_eq
  intro i hi
  simp only [BitVec.getLsbD_and, BitVec.getLsbD_append]
  interval_cases i <;> simp

namespace EncodeMatchesRow

theorem cksum (b0 b1 b2 b3 b4 : Byte) : Statement (.cksum b0 b1 b2 b3 b4) :=
  requestWord_and_mask ..
theorem encode (a b c v : Byte) : Statement (.encode a b c v) := requestWord_and_mask ..
theorem validate (b0 b1 b2 b3 b4 b5 : Byte) : Statement (.validate b0 b1 b2 b3 b4 b5) :=
  requestWord_and_mask ..
theorem pushb (b : Byte) : Statement (.pushb b) := requestWord_and_mask ..
theorem bldset (l c v : Byte) : Statement (.bldset l c v) := requestWord_and_mask ..
theorem bldpoll (l c : Byte) : Statement (.bldpoll l c) := requestWord_and_mask ..
theorem reglook (c : Byte) : Statement (.reglook c) := requestWord_and_mask ..
theorem dectemp (r : Byte) : Statement (.dectemp r) := requestWord_and_mask ..
theorem decfan (r : Byte) : Statement (.decfan r) := requestWord_and_mask ..
theorem encfan (n : Byte) : Statement (.encfan n) := requestWord_and_mask ..
theorem decsel (r : Byte) : Statement (.decsel r) := requestWord_and_mask ..
theorem decprg (r : Byte) : Statement (.decprg r) := requestWord_and_mask ..
theorem decprg2 (r : Byte) : Statement (.decprg2 r) := requestWord_and_mask ..
theorem rdvar (c : Byte) : Statement (.rdvar c) := requestWord_and_mask ..
theorem rdtraf (a : Byte) : Statement (.rdtraf a) := requestWord_and_mask ..
theorem reservedF : Statement .reservedF := requestWord_and_mask ..
theorem tgPoll (a b v k : Byte) : Statement (.tgPoll a b v k) :=
  (telegramWord_and_domain_command ⟨Machine.domainApp, a, b, Machine.pollMarker, v, k⟩).trans
    (show telegramWord ⟨0x01, 0, 0, 0x00, 0, 0⟩ = 0x010000000000 by decide)
theorem tgReport (a b c v k : Byte) : Statement (.tgReport a b c v k) :=
  (telegramWord_and_domain ⟨Machine.domainApp, a, b, c, v, k⟩).trans
    (show telegramWord ⟨0x01, 0, 0, 0, 0, 0⟩ = 0x010000000000 by decide)
theorem tgRaw (d a b c v k : Byte) : Statement (.tgRaw d a b c v k) := BitVec.and_zero

end EncodeMatchesRow

end Sys2Proof.Laws
end

