-- ==== Sys2Proof/Laws/Scan.lean ====
section
/-! SUPPORT. The scan's fuel is enough: more than the length of the stream changes nothing. -/

namespace Sys2Proof.Machine

/-- With at least as much fuel as the stream is long the scan does not depend on the fuel. -/
theorem scanFuel_enough (n : Nat) : ∀ (xs : List Byte), xs.length ≤ n → scanFuel n xs = scan xs := by
  unfold scan
  induction n using Nat.strong_induction_on with
  | _ n ih =>
    intro xs h
    match n, xs with
    | 0, xs =>
      have : xs = [] := List.eq_nil_of_length_eq_zero (by omega)
      subst this; rfl
    | n + 1, [] => rfl
    | n + 1, [_] => rfl
    | n + 1, [_, _] => rfl
    | n + 1, [_, _, _] => rfl
    | n + 1, [_, _, _, _] => rfl
    | n + 1, [_, _, _, _, _] => rfl
    | n + 1, b0 :: b1 :: b2 :: b3 :: b4 :: b5 :: rest =>
      simp only [List.length_cons] at h
      have h1 := ih n (by omega) rest (by omega)
      have h2 := ih n (by omega) (b1 :: b2 :: b3 :: b4 :: b5 :: rest)
        (by simp only [List.length_cons]; omega)
      have h3 := ih (rest.length + 5)  (by omega) rest (by omega)
      simp only [scanFuel, List.length_cons] at h1 h2 h3 ⊢
      rw [h1, h2, h3]

end Sys2Proof.Machine
end

