-- ==== Sys2Proof/Laws/Supplied.lean ====
section
/-! SUPPORT. The supplied configuration meets the constraints of the spec, whatever the free curve
is (log 5, log 6). -/

namespace Sys2Proof.Machine

theorem tempSupplied_get (i : Nat) (h : i < 256) : tempSupplied[i] = tempEntry i := by
  simp [tempSupplied]

theorem tempRising_bounds (n : Nat) : -74 ≤ tempRising n ∧ tempRising n ≤ 100 := by
  induction n with
  | zero => simp [tempRising]
  | succ n ih =>
    simp only [tempRising, tempClamp]
    omega

theorem tempSupplied_legal : configSupplied.TempLegal := by
  refine ⟨?_, ?_, ?_⟩
  · exact tempSupplied_get 0 (by decide)
  · exact tempSupplied_get 255 (by decide)
  · intro i h
    change tempSupplied[i] ≤ tempSupplied[i + 1]
    rw [tempSupplied_get, tempSupplied_get]
    have hb := tempRising_bounds i
    unfold tempEntry
    simp only [show ¬ 255 ≤ i by omega, if_false]
    split
    · exact hb.2
    · simp only [tempRising]; omega

theorem registryMin_legal : configSupplied.RegistryLegal := by
  refine ⟨by decide, by decide, ?_, by decide⟩
  intro e he
  simp only [configSupplied, registryMin, List.mem_cons, List.not_mem_nil, or_false] at he
  rcases he with rfl | rfl <;> simp

theorem configSupplied_legal : configSupplied.Legal :=
  ⟨registryMin_legal, tempSupplied_legal, by simp [configSupplied]⟩

end Sys2Proof.Machine
end

