-- ==== Sys2Proof/Tests/Slice0.lean ====
section
/-! SUPPORT. Our own tests. The expected results are the worked examples and vectors of
95_test_vectors (V, W and P numbers), the encodings of spec/opcode_table.json, or hand calculation;
none is the model's own answer. Then, for each statement with hypotheses, values that meet them. -/

open Sys2Proof Sys2Proof.Machine

namespace Sys2Proof.Tests

/-- The next state, if the outcome is one. -/
def nextOf : Host.Outcome State Fault Refusal → Option State
  | .next s => some s
  | .fault _ => none
  | .refused _ => none

/-- The response to a table word placed after reset and taken by one step. -/
def answer (nbits w : Nat) : Option Response :=
  (nextOf (step (State.reset.withFetchWord nbits w))).bind State.rsp

/-- The response to a request word. -/
def reply (w : Nat) : Option Response := answer 56 w

/-- A state after reset but for its window. -/
def withWin (w : List Byte) : State := { State.reset with win := w }

/-- A state in use: five bytes pending, both tables with entries, two requests waiting. -/
def busy : State :=
  { State.reset with
    win := [0x01, 0x22, 0x22, 0x29, 0x07]
    var := [(0x00, ⟨0xA3, 1⟩), (0x29, ⟨0x03, 2⟩)]
    traf := [(0x11, ⟨3, 0⟩), (0x22, ⟨0, 3⟩)]
    inbox := [pushInput 0x75, .reset] }

/-! ## Well-formedness: each check refuses a term -/

theorem test_wf_accepts_report : (Instr.tgReport 0x22 0x22 0x29 0x07 0x75).wellFormed = true := by
  decide
theorem test_wf_refuses_report_of_zero :
    (Instr.tgReport 0x11 0x20 0x00 0xA3 0xD5).wellFormed = false := by decide
theorem test_wf_refuses_raw_of_one :
    (Instr.tgRaw 0x01 0x22 0x22 0x29 0x07 0x75).wellFormed = false := by decide
theorem test_wf_refuses_checksum_poll :
    (Instr.tgPoll 0x11 0x20 0xA3 0xD4).wellFormed = false := by decide
theorem test_wf_refuses_checksum_report :
    (Instr.tgReport 0x22 0x22 0x29 0x07 0x74).wellFormed = false := by decide
theorem test_wf_refuses_checksum_raw :
    (Instr.tgRaw 0x02 0x11 0x21 0x29 0x0F 0x6D).wellFormed = false := by decide

/-! ## Decoding: words written out from the encodings of the opcode table -/

theorem test_decode_cksum : decode (.req52 0x0112233445566) = .ok (.cksum 0x11 0x22 0x33 0x44 0x55) :=
  by rfl
theorem test_decode_encode : decode (.req52 0x1112233445566) = .ok (.encode 0x11 0x22 0x33 0x44) :=
  by rfl
theorem test_decode_validate : decode (.req52 0x2112233445566) =
    .ok (.validate 0x11 0x22 0x33 0x44 0x55 0x66) := by rfl
theorem test_decode_pushb : decode (.req52 0x3112233445566) = .ok (.pushb 0x11) := by rfl
theorem test_decode_bldset : decode (.req52 0x4112233445566) = .ok (.bldset 0x11 0x22 0x33) := by rfl
theorem test_decode_bldpoll : decode (.req52 0x5112233445566) = .ok (.bldpoll 0x11 0x22) := by rfl
theorem test_decode_reglook : decode (.req52 0x6112233445566) = .ok (.reglook 0x11) := by rfl
theorem test_decode_dectemp : decode (.req52 0x7112233445566) = .ok (.dectemp 0x11) := by rfl
theorem test_decode_decfan : decode (.req52 0x8112233445566) = .ok (.decfan 0x11) := by rfl
theorem test_decode_encfan : decode (.req52 0x9112233445566) = .ok (.encfan 0x11) := by rfl
theorem test_decode_decsel : decode (.req52 0xA112233445566) = .ok (.decsel 0x11) := by rfl
theorem test_decode_decprg : decode (.req52 0xB112233445566) = .ok (.decprg 0x11) := by rfl
theorem test_decode_decprg2 : decode (.req52 0xC112233445566) = .ok (.decprg2 0x11) := by rfl
theorem test_decode_rdvar : decode (.req52 0xD112233445566) = .ok (.rdvar 0x11) := by rfl
theorem test_decode_rdtraf : decode (.req52 0xE112233445566) = .ok (.rdtraf 0x11) := by rfl
theorem test_decode_reservedF : decode (.req52 0xF112233445566) = .ok .reservedF := by rfl
theorem test_decode_tgPoll : decode (.tg48 0x01112000A3D5) = .ok (.tgPoll 0x11 0x20 0xA3 0xD5) := by
  rfl
theorem test_decode_tgReport : decode (.tg48 0x01112855109F) =
    .ok (.tgReport 0x11 0x28 0x55 0x10 0x9F) := by rfl
theorem test_decode_tgRaw : decode (.tg48 0x7101112000A3) =
    .ok (.tgRaw 0x71 0x01 0x11 0x20 0x00 0xA3) := by rfl
/-- V15: the mismatch is refused with both bytes. -/
theorem test_decode_refuses_checksum : decode (.tg48 0x011121A38057) =
    .error (.badChecksum 0x56 0x57) := by rfl
theorem test_table_word_report :
    decodeTableWord 48 0x012222290775 = some (.tgReport 0x22 0x22 0x29 0x07 0x75) := by rfl
theorem test_table_word_refused : decodeTableWord 48 0x012222290774 = none := by rfl

/-! ## CODEC and BLD -/

/-- V3. -/
theorem test_cksum_reduces : reply 0x0FFFFFFFFFF00 = some (.ok (.sum 0xFB)) := by decide
/-- V7. -/
theorem test_cksum_ignores_a5 : reply 0x001112000A399 = some (.ok (.sum 0xD5)) := by decide
/-- V8. -/
theorem test_encode_poll :
    reply 0x1112000A30000 = some (.ok (.frame [0x01, 0x11, 0x20, 0x00, 0xA3, 0xD5])) := by decide
/-- V11. -/
theorem test_encode_reduces :
    reply 0x1FFFFFFFF0000 = some (.ok (.frame [0x01, 0xFF, 0xFF, 0xFF, 0xFF, 0xFD])) := by decide
/-- V15. -/
theorem test_validate_mismatch :
    reply 0x2011121A38057 = some (.ok (.validated false none 0x56 0x57)) := by decide
/-- V16. -/
theorem test_validate_other_domain : reply 0x2021121290F6C =
    some (.ok (.validated true (some ⟨0x02, 0x11, 0x21, 0x29, 0x0F, 0x6C⟩) 0x6C 0x6C)) := by decide
/-- V70. -/
theorem test_bldset :
    reply 0x422291F000000 = some (.ok (.frame [0x01, 0x22, 0x11, 0x29, 0x1F, 0x7C])) := by decide
/-- V72. -/
theorem test_bldset_code_zero :
    reply 0x4220029000000 = some (.ok (.frame [0x01, 0x22, 0x11, 0x00, 0x29, 0x5D])) := by decide
/-- V71. -/
theorem test_bldpoll :
    reply 0x522A300000000 = some (.ok (.frame [0x01, 0x22, 0x11, 0x00, 0xA3, 0xD7])) := by decide
/-- V74. -/
theorem test_bldpoll_sender_is_operand :
    reply 0x5110000000000 = some (.ok (.frame [0x01, 0x11, 0x11, 0x00, 0x00, 0x23])) := by decide

/-! ## REG -/

/-- V30. -/
theorem test_reglook_select :
    reply 0x6A30000000000 = some (.ok (.registered true .select "Select")) := by decide
/-- V32. -/
theorem test_reglook_unknown :
    reply 0x6550000000000 = some (.ok (.registered false .opaqueRaw "unknown")) := by decide
/-- V34. -/
theorem test_dectemp_low : reply 0x7000000000000 = some (.ok (.temperature (-74))) := by rfl
/-- V35. -/
theorem test_dectemp_high : reply 0x7FF0000000000 = some (.ok (.temperature 100)) := by rfl
/-- V34, V35: the port images. -/
theorem test_temp_images : tempImage (-74) = 0xB6 ∧ tempImage 100 = 0x64 := by decide
/-- V36. -/
theorem test_decfan_three : reply 0x8070000000000 = some (.ok (.level 3)) := by decide
/-- V41. -/
theorem test_decfan_sentinel : reply 0x8FE0000000000 = some (.ok (.level 0)) := by decide
/-- V43. -/
theorem test_encfan_three : reply 0x9030000000000 = some (.ok (.fanRaw 0x07)) := by decide
/-- V45. -/
theorem test_encfan_nine : reply 0x9090000000000 = some (.fault .fanLevelRange) := by decide
/-- V49. -/
theorem test_decsel_even_bits : reply 0xA550000000000 =
    some (.ok (.select ⟨true, false, true, false, true, false, true, false⟩)) := by decide
/-- V51. -/
theorem test_decsel_ends : reply 0xA810000000000 =
    some (.ok (.select ⟨true, false, false, false, false, false, false, true⟩)) := by decide
/-- V52. -/
theorem test_decprg_mixed :
    reply 0xB6A0000000000 = some (.ok (.program ⟨10, false, .boost, .water, false⟩)) := by decide
/-- V56. -/
theorem test_decprg_bit_four :
    reply 0xB100000000000 = some (.ok (.program ⟨0, true, .fireplace, .electric, false⟩)) := by decide
/-- V58. -/
theorem test_decprg2_always : reply 0xC010000000000 = some (.ok (.program2 ⟨.always⟩)) := by decide
/-- V59. -/
theorem test_decprg2_ignores_rest :
    reply 0xCFE0000000000 = some (.ok (.program2 ⟨.withAdjustment⟩)) := by decide
/-- V110. -/
theorem test_reserved : reply 0xFFFFFFFFFFFFF = some (.fault .illegalOp) := by decide
/-- 30_encoding R94, R95: the numeric codes. -/
theorem test_codes : kindCode .program2 = 6 ∧ kindCode (decodedKind (.fanSpeed 3)) = 3 ∧
    eventCode (.byteDropped 0x01 0x75 0x74) = 2 ∧ eventCode (.rawTraffic 1 2 (.poll 0 .direct "")) = 4 :=
  by decide

/-! ## SYNC -/

/-- V80. -/
theorem test_pushb_fills :
    (nextOf (exec (.pushb 0x01) (withWin []))).map (fun t => (t.win, t.evs, t.rsp)) =
      some ([0x01], [], some (.ok .empty)) := by decide
/-- V83. -/
theorem test_pushb_drops :
    (nextOf (exec (.pushb 0x74) (withWin [0x01, 0x22, 0x22, 0x29, 0x07]))).map
      (fun t => (t.win, t.evs, t.var)) =
      some ([0x22, 0x22, 0x29, 0x07, 0x74], [.byteDropped 0x01 0x75 0x74], []) := by decide
/-- P4, the stream with a false lock. -/
theorem test_scan_false_lock :
    scan [0x71, 0x01, 0x11, 0x20, 0x00, 0xA3, 0xD5, 0x01, 0x11, 0x20, 0x00, 0xA3, 0xD5] =
      ([.frameAccepted ⟨0x71, 0x01, 0x11, 0x20, 0x00, 0xA3⟩, .byteDropped 0xD5 0x07 0xA3,
        .frameAccepted ⟨0x01, 0x11, 0x20, 0x00, 0xA3, 0xD5⟩], []) := by decide

/-! ## DISP -/

/-- V90, placed as a table word: the accept, then the update. -/
theorem test_tgReport_local :
    (nextOf (step (State.reset.withFetchWord 48 0x012222290775))).map
      (fun t => (t.var, t.traf, t.evs)) =
      some ([(0x29, ⟨0x07, 1⟩)], [(0x22, ⟨1, 1⟩)],
        [.frameAccepted ⟨0x01, 0x22, 0x22, 0x29, 0x07, 0x75⟩,
         .variableUpdated 0x29 0x07 (.fanSpeed 3)]) := by decide
/-- V94. -/
theorem test_tgReport_elsewhere :
    (nextOf (exec (.tgReport 0x11 0x28 0x55 0x10 0x9F) State.reset)).map
      (fun t => (t.var, t.traf, t.evs)) =
      some ([], [(0x11, ⟨1, 0⟩), (0x28, ⟨0, 1⟩)], []) := by decide
/-- V91. -/
theorem test_tgPoll_local :
    (nextOf (exec (.tgPoll 0x11 0x20 0xA3 0xD5) State.reset)).map
      (fun t => (t.var, t.traf, t.evs)) =
      some ([(0x00, ⟨0xA3, 1⟩)], [(0x11, ⟨1, 0⟩), (0x20, ⟨0, 1⟩)],
        [.variableUpdated 0x00 0xA3 (.opaqueRaw 0xA3)]) := by decide
/-- V96. -/
theorem test_tgPoll_to_master :
    (nextOf (exec (.tgPoll 0x22 0x11 0xA3 0xD7) State.reset)).map
      (fun t => (t.var, t.traf, t.evs)) =
      some ([], [(0x11, ⟨0, 1⟩), (0x22, ⟨1, 0⟩)], []) := by decide
/-- V98. -/
theorem test_tgRaw_report :
    (nextOf (exec (.tgRaw 0x02 0x11 0x21 0x29 0x0F 0x6C) State.reset)).map
      (fun t => (t.var, t.traf, t.evs)) =
      some ([], [(0x11, ⟨1, 0⟩), (0x21, ⟨0, 1⟩)],
        [.rawTraffic 0x11 0x21 (.report 0x29 .fanSpeed "FanSpeed" 0x0F)]) := by decide
/-- V86: one entry for sender and receiver alike. -/
theorem test_tgRaw_poll :
    (nextOf (exec (.pushb 0x00) (withWin [0x00, 0x00, 0x00, 0x00, 0x00]))).map
      (fun t => (t.traf, t.evs)) =
      some ([(0x00, ⟨1, 1⟩)], [.frameAccepted ⟨0, 0, 0, 0, 0, 0⟩,
        .rawTraffic 0x00 0x00 (.poll 0x00 .opaqueRaw "unknown")]) := by decide
/-- V101: stored and counted again, decoded to the sentinel. -/
theorem test_rdvar_seen :
    (nextOf (exec (.tgReport 0x11 0x22 0x29 0x08 0x65) busy)).bind
      (fun t => (nextOf (exec (.rdvar 0x29) t)).bind State.rsp) =
      some (.ok (.variable true 0x08 3)) := by decide
/-- After V90. -/
theorem test_rdvar_unseen : reply 0xDA30000000000 = some (.ok (.variable false 0 0)) := by decide
theorem test_rdtraf_seen :
    (nextOf (exec (.rdtraf 0x11) busy)).bind State.rsp = some (.ok (.traffic true 3 0)) := by decide
theorem test_rdtraf_unseen : reply 0xE110000000000 = some (.ok (.traffic false 0 0)) := by decide
/-- 10_state R31: saturation, by hand, for a width of 2 bits. -/
theorem test_counter_saturates :
    (incCounter { configSupplied with cntW := some 2 } 2,
      incCounter { configSupplied with cntW := some 2 } 3) = (3, 3) := by decide
/-- 70_reset R280. -/
theorem test_reset_pulse :
    (nextOf (step { busy with inbox := [.reset] })).map (fun t => (t.win, t.var, t.traf)) =
      some ([], [], []) := by decide

/-! ## Values that meet the hypotheses of the statements -/

/-- `busy` meets the invariant. -/
theorem test_busy_inv : Inv busy where
  window := by decide
  varWf := by decide
  trafWf := by decide
  legal := configSupplied_legal
  varCount := by
    intro c e h
    simp only [busy, tableGet] at h
    split at h
    · cases h; exact ⟨by decide, trivial⟩
    · split at h
      · cases h; exact ⟨by decide, trivial⟩
      · cases h
  trafCount := by
    intro a e h
    simp only [busy, tableGet] at h
    split at h
    · cases h; exact ⟨by decide, trivial, trivial⟩
    · split at h
      · cases h; exact ⟨by decide, trivial, trivial⟩
      · cases h

theorem test_hyp_DecodeInvertsEncode :
    (Instr.pushb 0xFF).wellFormed = true ∧ (Instr.tgPoll 0x11 0x20 0xA3 0xD5).wellFormed = true ∧
    (Instr.tgRaw 0x00 0x00 0x00 0x00 0x00 0x00).wellFormed = true := by decide

theorem test_hyp_TelegramClassesInTableOrder :
    ((1 + 0x11 + 0x20 + 0 + 0xA3) % 256 = 0xD5) ∧
    ((1 + 0x22 + 0x22 + 1 + 0) % 256 ≠ 0) ∧
    ((1 + 0x11 + 0x23 + 0x29 + 3) % 256 = 0x61) ∧
    ((0xFF + 0xFF + 0xFF + 0xFF + 0xFF) % 256 = 0xFB) ∧
    ([] : List Byte).length ≠ 6 ∧ ([1, 2, 3, 4, 5, 15, 1] : List Byte).length ≠ 6 := by decide

theorem test_hyp_StepRunsDecodedRequest :
    busy.inbox = .request 0x3750000000000 :: [.reset] ∧
    decode (.req52 0x3750000000000) = .ok (.pushb 0x75) := by
  constructor <;> rfl

theorem test_hyp_PlacedInstructionRunsNext :
    decodeTableWord 56 0x422291F000000 = some (.bldset 0x22 0x29 0x1F) ∧
    decodeTableWord 48 0x01112000A3D5 = some (.tgPoll 0x11 0x20 0xA3 0xD5) := by
  constructor <;> rfl

theorem test_hyp_ResetEmptiesWindowAndTables :
    { busy with inbox := [.reset] }.inbox = HostInput.reset :: [] := by rfl

theorem test_hyp_IdleStepKeepsMachine : (withWin [0x01]).inbox = [] := by rfl

theorem test_hyp_ChecksumIgnoresOrder :
    ([1, 2, 3, 4, 5] : List Byte).Perm [5, 4, 3, 2, 1] ∧
    validate6 [0x01, 0x11, 0x20, 0x00, 0xA3, 0xD5] ≠ none := by decide

theorem test_hyp_ChecksumDetectsUncancelledChanges :
    validate6 [0x01, 0x11, 0x20, 0x00, 0xA3, 0xD5] ≠ none ∧
    (0xD6 : Byte) ≠ ([0x01, 0x11, 0x20, 0x00, 0xA3, 0xD5] : List Byte).getD 5 0 ∧
    (0x00 : Byte) ≠ ([0x01, 0x11, 0x20, 0x00, 0xA3, 0xD5] : List Byte).getD 0 0 := by decide

theorem test_hyp_OnlyDomainOneIsBuilt :
    State.reset.rsp = none ∧
    (nextOf (exec (.encode 0x11 0x20 0x00 0xA3) State.reset)).bind State.rsp =
      some (.ok (.frame [0x01, 0x11, 0x20, 0x00, 0xA3, 0xD5])) ∧
    (nextOf (exec (.bldpoll 0x22 0xA3) State.reset)).bind State.rsp =
      some (.ok (.frame [0x01, 0x22, 0x11, 0x00, 0xA3, 0xD7])) := by
  refine ⟨rfl, ?_, ?_⟩ <;> decide

/-- Of EchoedBuiltFrameIsTrafficOnly and BuiltFramesValidate. -/
theorem test_hyp_built_frames :
    (withWin []).win = [] ∧ (withWin []).cfg.localAddr ≠ 0x11 ∧ (withWin []).cfg.panel8 ≠ 0x11 ∧
    (nextOf (exec (.bldset 0x22 0x29 0x1F) (withWin []))).bind State.rsp =
      some (.ok (.frame [0x01, 0x22, 0x11, 0x29, 0x1F, 0x7C])) ∧
    (nextOf (exec (.bldpoll 0x22 0xA3) (withWin []))).bind State.rsp =
      some (.ok (.frame [0x01, 0x22, 0x11, 0x00, 0xA3, 0xD7])) := by
  refine ⟨rfl, ?_, ?_, ?_, ?_⟩ <;> decide

theorem test_hyp_ReglookAnswersEntry :
    tableGet configSupplied.registry 0x00 = none ∧ tableGet configSupplied.registry 0xFF = none ∧
    configSupplied.RegistryLegal := ⟨by decide, by decide, registryMin_legal⟩

theorem test_hyp_DectempAnswersTable :
    configSupplied.TempLegal ∧
    (nextOf (exec (.dectemp 0x00) State.reset)).bind State.rsp = some (.ok (.temperature (-74))) ∧
    (nextOf (exec (.dectemp 0xFF) State.reset)).bind State.rsp = some (.ok (.temperature 100)) :=
  ⟨tempSupplied_legal, rfl, rfl⟩

theorem test_hyp_EncfanAnswersByteOrFault :
    (1 ≤ (1 : Byte).toNat ∧ (8 : Byte).toNat ≤ 8) ∧ (0 : Byte).toNat = 0 ∧
    9 ≤ (9 : Byte).toNat ∧ 9 ≤ (0xFF : Byte).toNat := by decide

theorem test_hyp_FanRoundTrip :
    (nextOf (exec (.encfan 1) State.reset)).bind State.rsp = some (.ok (.fanRaw 0x01)) ∧
    (nextOf (exec (.encfan 8) State.reset)).bind State.rsp = some (.ok (.fanRaw 0xFF)) ∧
    (0xFF : Byte) ∈ fanTable ∧ (0x00 : Byte) ∉ fanTable ∧ (0xFE : Byte) ∉ fanTable := by decide

theorem test_hyp_DecodedValueFollowsKind :
    (registryEntry configSupplied 0x00).kind = (registryEntry configSupplied 0x55).kind := by decide

/-- Of PushbFillsWindow: the empty window and one of four bytes. -/
theorem test_hyp_PushbFillsWindow :
    (withWin []).win.length < 5 ∧ (withWin [1, 2, 3, 4]).win.length < 5 := by decide

/-- Of PushbDropsOldestByte and PushbAcceptsWellFormedWindow. -/
theorem test_hyp_five_pending :
    busy.win = [0x01, 0x22, 0x22, 0x29, 0x07] ∧
    (0x75 : Byte).toNat = (0x01 + 0x22 + 0x22 + 0x29 + 0x07) % 256 ∧ (0x75 : Byte) ≠ 0x74 := by
  refine ⟨rfl, ?_, ?_⟩ <;> decide

theorem test_hyp_PushbEventLists :
    (nextOf (exec (.pushb 0x75) busy)).map (fun t => t.evs.length) = some 2 := by decide

/-- Of SyncEventByWindowLength, StreamIsGreedyScan and EveryPushedByteIsAccounted: windows of no,
four and five bytes. -/
theorem test_hyp_window_at_rest :
    (withWin []).win.length ≤ 5 ∧ (withWin [1, 2, 3, 4]).win.length ≤ 5 ∧ busy.win.length = 5 ∧
    validate6 (busy.win ++ [0x75]) ≠ none ∧ validate6 (busy.win ++ [0x74]) = none ∧
    ([1, 2, 3, 4, 5] : List Byte).length ≤ 5 := by decide

/-- W3, P1: three bytes of garbage before a telegram; and none. -/
theorem test_hyp_GarbageThenFrame :
    validate6 [0x01, 0x22, 0x22, 0x29, 0x07, 0x75] =
      some ⟨0x01, 0x22, 0x22, 0x29, 0x07, 0x75⟩ ∧
    (∀ i, i < ([0xFF, 0x55, 0x00] : List Byte).length → validate6
      ((([0xFF, 0x55, 0x00] ++ [0x01, 0x22, 0x22, 0x29, 0x07, 0x75]).drop i).take 6) = none) ∧
    (∀ i, i < ([] : List Byte).length → validate6
      ((([] ++ [0x01, 0x22, 0x22, 0x29, 0x07, 0x75]).drop i).take 6) = none) := by decide

/-- Of BatchIsFoldOfPushes and TrafficTotalsCountAccepts. -/
theorem test_hyp_batches :
    (nextOf (pushBatch [0x75, 0x01] busy)).map (fun t => (t.win, t.evs.length)) = some ([0x01], 2) ∧
    (nextOf (pushBatch [0x75] { busy with evs := [] })).isSome = true ∧
    busy.cfg.cntW = none ∧ tableWf busy.traf := by
  refine ⟨?_, ?_, ?_, ?_⟩ <;> decide

theorem test_hyp_RunOfPushRequestsIsBatch :
    busy.inbox = [0x75].map pushInput ++ [.reset] ∧
    (nextOf (pushBatch [0x75] busy)).isSome = true := ⟨rfl, by decide⟩

theorem test_hyp_ConstantStreams :
    (withWin []).win = [] ∧ (0xC0 : Byte) = 0xC0 ∧
    ((0x01 : Byte) ≠ 0x00 ∧ (0x01 : Byte) ≠ 0x40 ∧ (0x01 : Byte) ≠ 0x80 ∧ (0x01 : Byte) ≠ 0xC0) := by
  refine ⟨rfl, rfl, ?_⟩; decide

theorem test_hyp_TgRawReportsTraffic : (0x00 : Byte) ≠ 1 ∧ (0x02 : Byte) ≠ 1 := by decide

/-- Of TgReportUpdatesLocalVariable and TgPollStoresPolledCode: each member of the local receiver
set, and addresses beside it. -/
theorem test_hyp_local_receivers :
    LocalReceiver busy.cfg 0x20 ∧ LocalReceiver busy.cfg 0x21 ∧ LocalReceiver busy.cfg 0x22 ∧
    LocalReceiver busy.cfg 0x29 ∧ ¬ LocalReceiver busy.cfg 0x23 ∧ ¬ LocalReceiver busy.cfg 0x1F ∧
    (0xA3 : Byte) ≠ 0 := by
  simp [LocalReceiver, busy, State.reset, State.resetWith, configSupplied, addrPanel8Default]

theorem test_hyp_VariableWrittenExactlyWhenLocal :
    (Instr.tgReport 0x22 0x22 0x29 0x07 0x75).telegram =
      some ⟨0x01, 0x22, 0x22, 0x29, 0x07, 0x75⟩ ∧
    (Instr.tgRaw 0x02 0x11 0x21 0x29 0x0F 0x6C).telegram =
      some ⟨0x02, 0x11, 0x21, 0x29, 0x0F, 0x6C⟩ ∧
    (Instr.pushb 0x75).telegram = none ∧
    (nextOf (exec (.pushb 0x75) busy)).map (fun t => decide (t.var = busy.var)) = some false := by
  refine ⟨rfl, rfl, rfl, ?_⟩; decide

/-- Of RdvarAnswersEntry and RdtrafAnswersEntry, with test_busy_inv. -/
theorem test_hyp_entries :
    tableGet busy.var 0x29 = some ⟨0x03, 2⟩ ∧ tableGet busy.var 0xA3 = none ∧
    tableGet busy.traf 0x11 = some ⟨3, 0⟩ ∧ tableGet busy.traf 0x12 = none ∧
    (nextOf (exec (.rdvar 0x29) busy)).bind State.rsp = some (.ok (.variable true 0x03 2)) ∧
    (nextOf (exec (.rdtraf 0x22) busy)).bind State.rsp = some (.ok (.traffic true 0 3)) := by decide

theorem test_hyp_ContractFaultsChangeNothing :
    busy.rsp = none ∧
    (nextOf (exec .reservedF busy)).bind State.rsp = some (.fault .illegalOp) ∧
    (nextOf (exec (.encfan 0) busy)).bind State.rsp = some (.fault .fanLevelRange) := by
  refine ⟨rfl, ?_, ?_⟩ <;> decide

theorem test_hyp_CountersOnlyRise :
    configSupplied.cntW = none ∧ { configSupplied with cntW := some 1 }.cntW = some 1 ∧
    0 < 2 ^ 1 - 1 ∧
    (nextOf (exec (.tgReport 0x11 0x22 0x29 0x08 0x65) busy)).map
      (fun t => (tableGet t.var 0x29, tableGet t.traf 0x11)) =
      some (some ⟨0x08, 3⟩, some ⟨4, 0⟩) := by
  refine ⟨rfl, rfl, ?_, ?_⟩ <;> decide

theorem test_hyp_PureRequestsChangeNothing :
    isPure (.rdvar 0x29) = true ∧ tableGet busy.var 0x29 = tableGet { busy with win := [] }.var 0x29 ∧
    (nextOf (exec (.rdvar 0x29) busy)).isSome = true ∧
    (nextOf (exec (.pushb 0x74) busy)).isSome = true ∧
    isRequest (.pushb 0x74) = true ∧ isPure (.pushb 0x74) = false := by decide

/-- Of StepKeepsInvariant, RunNeverStops and ConfigurationNeverChanges, with test_busy_inv. -/
theorem test_hyp_steps :
    busy.inbox = .request 0x3750000000000 :: [.reset] ∧ (nextOf (step busy)).isSome = true ∧
    (nextOf (Host.Core.run Sys2Proof.core 2 busy)).isSome = true := by
  refine ⟨rfl, ?_, ?_⟩ <;> decide

end Sys2Proof.Tests
end

section
/-! The CODEC family (40_codec): what CKSUM, ENCODE and VALIDATE answer, and that the checksum does
not depend on the order of its five bytes. -/

namespace Sys2Proof

/-! ## Decoding -/

/-- Op 0x0 is CKSUM of the first five operand bytes (30_encoding R91). -/
theorem decode_requestWord_cksum (b0 b1 b2 b3 b4 x : Byte) :
    decode (.req52 (requestWord 0x0 b0 b1 b2 b3 b4 x)) = .ok (.cksum b0 b1 b2 b3 b4) := by
  simp [decode, decodeRequest]

/-- Op 0x1 is ENCODE of the first four operand bytes (30_encoding R91). -/
theorem decode_requestWord_encode (a b c v x y : Byte) :
    decode (.req52 (requestWord 0x1 a b c v x y)) = .ok (.encode a b c v) := by
  simp [decode, decodeRequest]

/-- The first row of 30_encoding R99: domain 1 and command 0. -/
theorem classify_poll {t : Telegram} (hk : t.checksum = Machine.telegramSum t)
    (hd : t.domain = Machine.domainApp) (hc : t.command = Machine.pollMarker) :
    classify t = .ok (.tgPoll t.sender t.receiver t.value t.checksum) := by
  unfold classify
  rw [if_neg (not_not.mpr hk), if_pos ⟨hd, hc⟩]

/-- The second row of 30_encoding R99: domain 1 and any other command. -/
theorem classify_report {t : Telegram} (hk : t.checksum = Machine.telegramSum t)
    (hd : t.domain = Machine.domainApp) (hc : t.command ≠ Machine.pollMarker) :
    classify t = .ok (.tgReport t.sender t.receiver t.command t.value t.checksum) := by
  unfold classify
  rw [if_neg (not_not.mpr hk), if_neg (fun h => hc h.2), if_pos hd]

namespace Machine

/-! ## The three operations -/

theorem exec_cksum (b0 b1 b2 b3 b4 : Byte) (s : State) :
    exec (.cksum b0 b1 b2 b3 b4) s = .next (respond (.sum (checksum5 b0 b1 b2 b3 b4)) s) := rfl

theorem exec_encode (a b c v : Byte) (s : State) :
    exec (.encode a b c v) s = .next (respond (.frame (pack (encodeTelegram a b c v))) s) := rfl

theorem exec_validate (b0 b1 b2 b3 b4 b5 : Byte) (s : State) :
    exec (.validate b0 b1 b2 b3 b4 b5) s =
      .next (respond (validatePayload b0 b1 b2 b3 b4 b5) s) := rfl

/-- VALIDATE accepts a sixth byte that is the checksum of the five before it (40_codec R124). -/
theorem validatePayload_of_checksum {b0 b1 b2 b3 b4 k : Byte}
    (hk : k = checksum5 b0 b1 b2 b3 b4) :
    validatePayload b0 b1 b2 b3 b4 k = .validated true (some ⟨b0, b1, b2, b3, b4, k⟩) k k := by
  subst hk
  exact if_pos rfl

/-! ## Order of the bytes -/

/-- The checksum as a sum over a list, which `List.Perm` can reorder. -/
theorem checksum5_eq_sum (b0 b1 b2 b3 b4 : Byte) :
    checksum5 b0 b1 b2 b3 b4 = [b0, b1, b2, b3, b4].sum := by
  simp [checksum5_eq_add, add_assoc]

/-- The checksum depends only on which five bytes there are (40_codec R127). -/
theorem checksum5_perm {a0 a1 a2 a3 a4 b0 b1 b2 b3 b4 : Byte}
    (h : [a0, a1, a2, a3, a4].Perm [b0, b1, b2, b3, b4]) :
    checksum5 a0 a1 a2 a3 a4 = checksum5 b0 b1 b2 b3 b4 := by
  rw [checksum5_eq_sum, checksum5_eq_sum, h.sum_eq]

theorem validate6_six_ne_none_iff (b0 b1 b2 b3 b4 k : Byte) :
    validate6 [b0, b1, b2, b3, b4, k] ≠ none ↔ k = checksum5 b0 b1 b2 b3 b4 := by
  simp [validate6_six]

/-- Reordering the five leading bytes of a valid frame leaves it valid, the checksum byte kept. -/
theorem validate6_perm {a0 a1 a2 a3 a4 b0 b1 b2 b3 b4 k : Byte}
    (h : [a0, a1, a2, a3, a4].Perm [b0, b1, b2, b3, b4])
    (hv : validate6 [a0, a1, a2, a3, a4, k] ≠ none) :
    validate6 [b0, b1, b2, b3, b4, k] = some ⟨b0, b1, b2, b3, b4, k⟩ := by
  have hk : k = checksum5 b0 b1 b2 b3 b4 :=
    ((validate6_six_ne_none_iff ..).mp hv).trans (checksum5_perm h)
  rw [validate6_six, if_pos hk]

/-! ## The obligations -/

/-- Settles O10: the checksum is the sum of the list of its bytes, so a permutation keeps it. -/
theorem checksumIgnoresOrder : Obligations.ChecksumIgnoresOrder := by
  unfold Obligations.ChecksumIgnoresOrder
  constructor
  · intro a0 a1 a2 a3 a4 b0 b1 b2 b3 b4 s h
    rw [exec_cksum, exec_cksum, checksum5_perm h]
  · intro d s r c v k hv
    constructor
    · exact validate6_perm (.cons d (.swap r s [c, v])) hv
    · exact validate6_perm (.cons d (.cons s (.cons r (.swap v c [])))) hv

/-- Settles O15: the sixth byte ENCODE answers is the checksum VALIDATE recomputes. -/
theorem validateAcceptsEncoded : Obligations.ValidateAcceptsEncoded := by
  unfold Obligations.ValidateAcceptsEncoded
  intro a b c v s s'
  refine ⟨checksum5 0x01 a b c v, checksum5_toNat .., exec_encode .., ?_⟩
  rw [exec_validate, validatePayload_of_checksum rfl, respond]

/-- Settles O9, the sum read as a number and as wrapping additions. -/
theorem cksumAnswersSumMod256 : Obligations.CksumAnswersSumMod256 := by
  unfold Obligations.CksumAnswersSumMod256
  constructor
  · exact decode_requestWord_cksum
  · intro b0 b1 b2 b3 b4 s
    exact ⟨checksum5 b0 b1 b2 b3 b4, checksum5_toNat .., checksum5_eq_add .., exec_cksum ..⟩

/-- Settles O12: the frame is a telegram of domain 1 with its own checksum, and the command alone
chooses between the rows of 30_encoding R99. -/
theorem encodeAnswersFrame : Obligations.EncodeAnswersFrame := by
  unfold Obligations.EncodeAnswersFrame
  constructor
  · exact decode_requestWord_encode
  · intro a b c v s
    refine ⟨checksum5 0x01 a b c v, checksum5_toNat .., exec_encode .., fun hc => ?_, fun hc => ?_⟩
    · exact classify_poll (t := encodeTelegram a b c v) rfl rfl hc
    · exact classify_report (t := encodeTelegram a b c v) rfl rfl hc

end Machine
end Sys2Proof
end

section
/-! The FRAMESYNC family (41_framesync): what a stream with no well-formed window in it does to the
synchronizer, and the resynchronization of R149. -/

namespace Sys2Proof.Machine

/-! ## Lists of events -/

theorem syncEvents_append (ds es : List Event) :
    syncEvents (ds ++ es) = syncEvents ds ++ syncEvents es :=
  List.filter_append ..

theorem acceptCount_append (ds es : List Event) :
    acceptCount (ds ++ es) = acceptCount ds + acceptCount es :=
  List.countP_append

theorem dropCount_append (ds es : List Event) :
    dropCount (ds ++ es) = dropCount ds + dropCount es :=
  List.countP_append

/-- Every event of the list is a ByteDropped. -/
def AllDrops (es : List Event) : Prop := ∀ e ∈ es, isDrop e = true

theorem AllDrops.append {ds es : List Event} (hd : AllDrops ds) (he : AllDrops es) :
    AllDrops (ds ++ es) :=
  List.forall_mem_append.2 ⟨hd, he⟩

theorem AllDrops.dropCount {ds : List Event} (h : AllDrops ds) : dropCount ds = ds.length :=
  List.countP_eq_length.2 h

theorem isAccept_of_isDrop {e : Event} (h : isDrop e = true) : isAccept e = false := by
  cases e <;> simp_all [isDrop, isAccept]

theorem isSyncEvent_of_isDrop {e : Event} (h : isDrop e = true) : isSyncEvent e = true := by
  cases e <;> simp_all [isDrop, isSyncEvent]

theorem length_eventBytes_of_isDrop {e : Event} (h : isDrop e = true) :
    (eventBytes e).length = 1 := by
  cases e <;> simp_all [isDrop, eventBytes]

theorem AllDrops.acceptCount {ds : List Event} (h : AllDrops ds) : acceptCount ds = 0 :=
  List.countP_eq_zero.2 fun e he => by simp [isAccept_of_isDrop (h e he)]

theorem AllDrops.syncEvents {ds : List Event} (h : AllDrops ds) : syncEvents ds = ds :=
  List.filter_eq_self.2 fun e he => isSyncEvent_of_isDrop (h e he)

/-- Each drop accounts for one byte (41_framesync R144). -/
theorem AllDrops.length_bytes {ds : List Event} (h : AllDrops ds) :
    (ds.flatMap eventBytes).length = ds.length := by
  rw [List.length_flatMap,
    List.map_congr_left fun e he => length_eventBytes_of_isDrop (h e he)]
  simp

/-! ## The bytes before a checksum -/

/-- The five bytes of a telegram that its checksum sums. -/
def leading (t : Telegram) : List Byte := [t.domain, t.sender, t.receiver, t.command, t.value]

@[simp] theorem length_leading (t : Telegram) : (leading t).length = 5 := rfl

theorem pack_eq_leading (t : Telegram) : pack t = leading t ++ [t.checksum] := rfl

/-! ## Streams without a well-formed window -/

/-- No six consecutive bytes of the stream are well formed: the proviso of 41_framesync R149, of the
windows that the stream holds in full. -/
def NoFrame (xs : List Byte) : Prop :=
  ∀ i, i + 6 ≤ xs.length → validate6 ((xs.drop i).take 6) = none

theorem NoFrame.of_append_right {xs ys : List Byte} (h : NoFrame (xs ++ ys)) : NoFrame ys := by
  intro i hi
  have hw := h (xs.length + i) (by simp only [List.length_append]; omega)
  rwa [List.drop_length_add_append] at hw

/-- The first candidate of such a stream fails its checksum. -/
theorem NoFrame.ne_checksum5 {b0 b1 b2 b3 b4 b5 : Byte} {rest : List Byte}
    (h : NoFrame ([b0, b1, b2, b3, b4] ++ b5 :: rest)) : b5 ≠ checksum5 b0 b1 b2 b3 b4 := by
  have hw : validate6 [b0, b1, b2, b3, b4, b5] = none :=
    h 0 (by simp only [List.length_append, List.length_cons]; omega)
  exact fun hb => (validate6_six_ne_none_iff ..).2 hb hw

/-- Up to the last five bytes before a frame, the windows of a stream are those that start in the
garbage. -/
theorem noFrame_take {g f : List Byte} {k : Nat} (hk : k ≤ g.length + 5)
    (h : ∀ i, i < g.length → validate6 (((g ++ f).drop i).take 6) = none) :
    NoFrame ((g ++ f).take k) := by
  intro i hi
  have hik : i + 6 ≤ k := hi.trans (List.length_take_le ..)
  rw [List.drop_take, List.take_take, min_eq_left (by omega)]
  exact h i (by omega)

/-! ## Pushes that accept nothing -/

/-- Pushing `bs` from `s` to `t` emitted the drops `ds` and nothing else, and lost no byte. -/
structure DropRun (bs : List Byte) (s t : State) (ds : List Event) : Prop where
  evs : t.evs = s.evs ++ ds
  drops : AllDrops ds
  bytes : s.win ++ bs = ds.flatMap eventBytes ++ t.win
  win_length : t.win.length = min 5 (s.win.length + bs.length)

theorem DropRun.nil {s : State} (h : s.win.length ≤ 5) : DropRun [] s s [] where
  evs := by simp
  drops := by simp [AllDrops]
  bytes := by simp
  win_length := by simp only [List.length_nil]; omega

theorem DropRun.append {as bs : List Byte} {s t u : State} {ds es : List Event}
    (h : DropRun as s t ds) (h' : DropRun bs t u es) : DropRun (as ++ bs) s u (ds ++ es) where
  evs := by rw [h'.evs, h.evs, List.append_assoc]
  drops := h.drops.append h'.drops
  bytes := by
    rw [← List.append_assoc, h.bytes, List.append_assoc, h'.bytes, List.flatMap_append,
      List.append_assoc]
  win_length := by
    rw [h'.win_length, h.win_length, List.length_append]
    omega

/-- As many drops as the window cannot hold: from an empty window the first five pushes are silent
(41_framesync R142). -/
theorem DropRun.length_drops {bs : List Byte} {s t : State} {ds : List Event}
    (h : DropRun bs s t ds) : ds.length = s.win.length + bs.length - 5 := by
  have hl := congrArg List.length h.bytes
  rw [List.length_append, List.length_append, h.drops.length_bytes, h.win_length] at hl
  omega

/-- A push that does not complete a well-formed window fills the window or drops its oldest byte
(41_framesync R141). -/
theorem execPushb_dropRun {b : Byte} {rest : List Byte} {s : State} (hw : s.win.length ≤ 5)
    (hn : NoFrame (s.win ++ b :: rest)) :
    ∃ t ds, execPushb b s = .next t ∧ DropRun [b] s t ds := by
  rcases execPushb_cases b s with ⟨hl, he⟩ | ⟨w0, w1, w2, w3, w4, hwin, -, he⟩ |
    ⟨w0, w1, w2, w3, w4, hwin, hb, -⟩ | ⟨hl, -⟩
  · refine ⟨_, [], he, by simp, by simp [AllDrops], by simp, ?_⟩
    simp only [respond_win, setWindow_win, List.length_append, List.length_singleton]
    omega
  · exact ⟨_, _, he, rfl, by simp [AllDrops, isDrop], by simp [hwin, eventBytes], by simp [hwin]⟩
  · rw [hwin] at hn
    exact absurd hb hn.ne_checksum5
  · omega

theorem pushBatch_cons {b : Byte} {s t : State} (h : execPushb b s = .next t) (bs : List Byte) :
    pushBatch (b :: bs) s = pushBatch bs t := by
  simp only [pushBatch, h]

theorem pushBatch_append (bs : List Byte) : ∀ {as : List Byte} {s t : State},
    pushBatch as s = .next t → pushBatch (as ++ bs) s = pushBatch bs t
  | [], s, t, h => by cases h; rfl
  | a :: as, s, t, h => by
    simp only [pushBatch, List.cons_append] at h ⊢
    split at h
    · exact pushBatch_append bs h
    · cases h
    · cases h

/-- A stream that, joined to the window, holds no well-formed window is dropped byte by byte but for
its last five bytes. -/
theorem pushBatch_dropRun {bs : List Byte} {s : State} (hw : s.win.length ≤ 5)
    (hn : NoFrame (s.win ++ bs)) : ∃ t ds, pushBatch bs s = .next t ∧ DropRun bs s t ds := by
  induction bs generalizing s with
  | nil => exact ⟨s, [], rfl, .nil hw⟩
  | cons b bs ih =>
    obtain ⟨t, ds, he, hd⟩ := execPushb_dropRun hw hn
    have hbytes : s.win ++ b :: bs = ds.flatMap eventBytes ++ (t.win ++ bs) := by
      rw [← List.append_assoc, ← hd.bytes, List.append_assoc, List.singleton_append]
    obtain ⟨u, es, hu, hd'⟩ := ih (by rw [hd.win_length]; omega) (hbytes ▸ hn).of_append_right
    exact ⟨u, ds ++ es, (pushBatch_cons he bs).trans hu, hd.append hd'⟩

/-! ## The push that accepts -/

/-- What DISPATCH emits is not an event of the synchronizer (42_dispatch R170). -/
theorem syncEvents_dispatchTelegram (t : Telegram) (s : State) :
    syncEvents (dispatchTelegram t s).evs = syncEvents s.evs := by
  rcases dispatchTelegram_cases t s with ⟨-, h⟩ | ⟨-, -, h⟩ | ⟨-, -, h⟩ <;>
    simp [h, syncEvents, isSyncEvent]

/-- The byte that completes a well-formed window empties it and accepts its telegram
(41_framesync R146). -/
theorem execPushb_accept {tg : Telegram} {s : State} (hk : tg.checksum = telegramSum tg)
    (hwin : s.win = leading tg) :
    ∃ t, execPushb tg.checksum s = .next t ∧ t.win = [] ∧
      syncEvents t.evs = syncEvents s.evs ++ [.frameAccepted tg] := by
  rcases execPushb_cases tg.checksum s with ⟨hl, -⟩ | ⟨w0, w1, w2, w3, w4, hw, hb, -⟩ |
    ⟨w0, w1, w2, w3, w4, hw, -, he⟩ | ⟨hl, -⟩
  · simp [hwin] at hl
  · cases hwin.symm.trans hw
    exact absurd hk hb
  · cases hwin.symm.trans hw
    refine ⟨_, he, (dispatchTelegram_frame _ _).1, ?_⟩
    rw [syncEvents_dispatchTelegram]
    simp [syncEvents, isSyncEvent]
  · simp [hwin] at hl

/-! ## Garbage and then a frame -/

section garbage
variable {g : List Byte} {tg : Telegram} {s : State}

/-- The pushes before a frame's last byte, as far as no window that starts in the garbage is well
formed. -/
theorem pushBatch_garbage {k : Nat} (hwin : s.win = [])
    (hn : ∀ i, i < g.length → validate6 (((g ++ pack tg).drop i).take 6) = none)
    (hk : k ≤ g.length + 5) : ∃ t ds, pushBatch ((g ++ pack tg).take k) s = .next t ∧
      DropRun ((g ++ pack tg).take k) s t ds :=
  pushBatch_dropRun (by simp [hwin]) (by rw [hwin]; exact noFrame_take hk hn)

/-- Before the frame's last byte the garbage is what was dropped, and the frame's first five bytes
are what is pending. -/
theorem pushBatch_garbage_leading (hwin : s.win = [])
    (hn : ∀ i, i < g.length → validate6 (((g ++ pack tg).drop i).take 6) = none) :
    ∃ t ds, pushBatch (g ++ leading tg) s = .next t ∧ t.evs = s.evs ++ ds ∧ AllDrops ds ∧
      ds.flatMap eventBytes = g ∧ t.win = leading tg := by
  have htake : (g ++ pack tg).take (g.length + 5) = g ++ leading tg :=
    List.take_length_add_append ..
  obtain ⟨t, ds, ht, hd⟩ := pushBatch_garbage hwin hn le_rfl
  rw [htake] at ht hd
  have hsplit : g ++ leading tg = ds.flatMap eventBytes ++ t.win := by
    rw [← hd.bytes, hwin, List.nil_append]
  have hlen : (leading tg).length = t.win.length := by
    simp [hd.win_length, ← add_assoc]
  obtain ⟨hg, hw⟩ := List.append_inj' hsplit hlen
  exact ⟨t, ds, ht, hd.evs, hd.drops, hg.symm, hw.symm⟩

/-- The drops of the garbage in order, then the accept (41_framesync R149). -/
theorem pushBatch_garbage_frame (hwin : s.win = []) (hk : tg.checksum = telegramSum tg)
    (hn : ∀ i, i < g.length → validate6 (((g ++ pack tg).drop i).take 6) = none) :
    ∃ t ds, pushBatch (g ++ pack tg) s = .next t ∧ t.win = [] ∧
      syncEvents t.evs = syncEvents s.evs ++ ds ++ [.frameAccepted tg] ∧
      AllDrops ds ∧ ds.flatMap eventBytes = g := by
  obtain ⟨t, ds, ht, hevs, hd, hg, hw⟩ := pushBatch_garbage_leading hwin hn
  obtain ⟨u, hu, huw, hue⟩ := execPushb_accept hk hw
  refine ⟨u, ds, ?_, huw, ?_, hd, hg⟩
  · rw [pack_eq_leading, ← List.append_assoc, pushBatch_append _ ht, pushBatch_cons hu, pushBatch]
  · rw [hue, hevs, syncEvents_append, hd.syncEvents]

/-- Push by push before the accept: no accept, and one drop for each push after the fifth
(41_framesync R149). -/
theorem pushBatch_garbage_counts {k : Nat} (hwin : s.win = [])
    (hn : ∀ i, i < g.length → validate6 (((g ++ pack tg).drop i).take 6) = none)
    (hk : k ≤ g.length + 5) : ∃ t, pushBatch ((g ++ pack tg).take k) s = .next t ∧
      acceptCount t.evs = acceptCount s.evs ∧ dropCount t.evs = dropCount s.evs + (k - 5) := by
  obtain ⟨t, ds, ht, hd⟩ := pushBatch_garbage hwin hn hk
  have hlen : ((g ++ pack tg).take k).length = k := by
    rw [List.length_take, List.length_append, pack_eq_leading, List.length_append, length_leading,
      List.length_singleton]
    omega
  refine ⟨t, ht, ?_, ?_⟩
  · rw [hd.evs, acceptCount_append, hd.drops.acceptCount, add_zero]
  · rw [hd.evs, dropCount_append, hd.drops.dropCount, hd.length_drops, hwin, hlen,
      List.length_nil, zero_add]

end garbage

/-! ## The obligation -/

/-- Settles O36: the pushes up to N + 5 are a run of drops that leaves the frame's first five bytes
in the window, and push N + 6 is the accept. -/
theorem garbageThenFrame : Obligations.GarbageThenFrame := by
  unfold Obligations.GarbageThenFrame
  intro g f tg s hwin hf hn
  obtain ⟨rfl, hsum⟩ := validate6_some hf
  constructor
  · obtain ⟨t, ds, ht, hw, hevs, hd, hg⟩ := pushBatch_garbage_frame hwin hsum hn
    have hcount : dropCount ds = g.length := by
      rw [hd.dropCount, ← hd.length_bytes, hg]
    exact ⟨t, ds, ht, hw, hevs, hcount, hd.acceptCount, hg⟩
  · intro k hk
    exact pushBatch_garbage_counts hwin hn hk

end Sys2Proof.Machine
end

section
/-! The DISPATCH family (42_dispatch): what an instruction does to the variable table, and that
R164's condition is exactly when one writes it. -/

namespace Sys2Proof.Machine

/-! ## What each kind of instruction runs -/

/-- An instruction of a telegram class dispatches its telegram (42_dispatch R161). -/
theorem exec_of_telegram {i : Instr} {tg : Telegram} (h : i.telegram = some tg) (s : State) :
    exec i s = .next (dispatchTelegram tg s) := by
  cases i with
  | tgPoll a b v k => cases h; rfl
  | tgReport a b c v k => cases h; rfl
  | tgRaw d a b c v k => cases h; rfl
  | _ => cases h

/-- ENCFAN answers the byte of the level or a contract fault (43_registry R201). -/
theorem exec_encfan_response (n : Byte) (s : State) :
    ∃ r, exec (.encfan n) s = .next { s with rsp := some r } := by
  change ∃ r, execEncfan n s = _
  unfold execEncfan
  split
  · exact ⟨_, rfl⟩
  · exact ⟨_, rfl⟩

/-- A pure request writes a response and nothing else (20_memory R57). -/
theorem exec_of_isPure {i : Instr} (h : isPure i = true) (s : State) :
    ∃ r, exec i s = .next { s with rsp := some r } := by
  cases i with
  | encfan n => exact exec_encfan_response n s
  | pushb b => cases h
  | tgPoll a b v k => cases h
  | tgReport a b c v k => cases h
  | tgRaw d a b c v k => cases h
  | _ => exact ⟨_, rfl⟩

/-- PUSHB is the only request that is not pure (20_memory R57). -/
theorem isPure_or_pushb {i : Instr} (h : i.telegram = none) :
    isPure i = true ∨ ∃ b, i = .pushb b := by
  cases i with
  | pushb b => exact .inr ⟨b, rfl⟩
  | tgPoll a b v k => cases h
  | tgReport a b c v k => cases h
  | tgRaw d a b c v k => cases h
  | _ => exact .inl rfl

/-! ## The variable table -/

/-- DISPATCH of domain 1 to a local receiver writes the command's entry (42_dispatch R164, R165). -/
theorem dispatchTelegram_var_local {tg : Telegram} {s : State} (hd : tg.domain = 1)
    (hr : LocalReceiver s.cfg tg.receiver) : (dispatchTelegram tg s).var =
      tableSet s.var tg.command
        ⟨tg.value, incCounter s.cfg (varCount s.var tg.command)⟩ := by
  rcases dispatchTelegram_cases tg s with ⟨hd', -⟩ | ⟨-, -, he⟩ | ⟨-, hr', -⟩
  · exact absurd hd hd'
  · rw [he]
  · exact absurd hr hr'

/-- DISPATCH of any other telegram leaves the variable table (42_dispatch R164). -/
theorem dispatchTelegram_var_not_local {tg : Telegram} {s : State}
    (h : ¬ (tg.domain = 1 ∧ LocalReceiver s.cfg tg.receiver)) :
    (dispatchTelegram tg s).var = s.var := by
  rcases dispatchTelegram_cases tg s with ⟨-, he⟩ | ⟨hd, hr, -⟩ | ⟨-, -, he⟩
  · rw [he]
  · exact absurd ⟨hd, hr⟩ h
  · rw [he]

/-- A PUSHB that changes the variable table completes a well-formed telegram of domain 1 to a local
receiver (41_framesync R146, 42_dispatch R164). -/
theorem execPushb_var_changed {b : Byte} {s t : State} (h : execPushb b s = .next t)
    (hv : t.var ≠ s.var) : ∃ tg, validate6 (s.win ++ [b]) = some tg ∧ tg.domain = 1 ∧
      LocalReceiver s.cfg tg.receiver := by
  rcases execPushb_cases b s with ⟨-, he⟩ | ⟨w0, w1, w2, w3, w4, -, -, he⟩ |
    ⟨w0, w1, w2, w3, w4, hwin, hb, he⟩ | ⟨-, he⟩
  · cases h.symm.trans he
    exact absurd rfl hv
  · cases h.symm.trans he
    exact absurd rfl hv
  · cases h.symm.trans he
    have hlocal : w0 = 1 ∧ LocalReceiver s.cfg w2 := by
      by_contra hn
      exact hv (dispatchTelegram_var_not_local hn)
    refine ⟨⟨w0, w1, w2, w3, w4, b⟩, ?_, hlocal⟩
    rw [hwin]
    exact (validate6_six ..).trans (if_pos hb)
  · cases h.symm.trans he

/-! ## The obligation -/

/-- Settles O43: a telegram class is one DISPATCH, and of the requests the pure ones write only the
response, so a changed variable table comes from the DISPATCH of an accepting PUSHB. -/
theorem variableWrittenExactlyWhenLocal : Obligations.VariableWrittenExactlyWhenLocal := by
  unfold Obligations.VariableWrittenExactlyWhenLocal
  constructor
  · intro i tg s t htg hexec
    cases (exec_of_telegram htg s).symm.trans hexec
    constructor
    · rintro ⟨hd, hr⟩
      rw [dispatchTelegram_var_local hd hr]
      exact ⟨by rw [tableGet_tableSet_same]; rfl, fun c hc => tableGet_tableSet_other _ _ hc⟩
    · exact dispatchTelegram_var_not_local
  · intro i s t hreq hexec hv
    rcases isPure_or_pushb hreq with hp | ⟨b, rfl⟩
    · obtain ⟨r, he⟩ := exec_of_isPure hp s
      cases he.symm.trans hexec
      exact absurd rfl hv
    · obtain ⟨tg, hval, hlocal⟩ := execPushb_var_changed hexec hv
      exact ⟨b, tg, rfl, hval, hlocal⟩

end Sys2Proof.Machine
end

section
/-! The REG family (43_registry): what DECFAN, DECSEL, DECPRG and DECPRG2 answer for every byte, and
the decoding of a variable by its kind. -/

namespace Sys2Proof

/-! ## Decoding -/

section decoding
variable (r x y z u v : Byte)

/-- Op 0x8 is DECFAN of the first operand byte (30_encoding R91). -/
theorem decode_requestWord_decfan :
    decode (.req52 (requestWord 0x8 r x y z u v)) = .ok (.decfan r) := by
  simp [decode, decodeRequest]

/-- Op 0xA is DECSEL of the first operand byte (30_encoding R91). -/
theorem decode_requestWord_decsel :
    decode (.req52 (requestWord 0xA r x y z u v)) = .ok (.decsel r) := by
  simp [decode, decodeRequest]

/-- Op 0xB is DECPRG of the first operand byte (30_encoding R91). -/
theorem decode_requestWord_decprg :
    decode (.req52 (requestWord 0xB r x y z u v)) = .ok (.decprg r) := by
  simp [decode, decodeRequest]

/-- Op 0xC is DECPRG2 of the first operand byte (30_encoding R91). -/
theorem decode_requestWord_decprg2 :
    decode (.req52 (requestWord 0xC r x y z u v)) = .ok (.decprg2 r) := by
  simp [decode, decodeRequest]

end decoding

namespace Machine

/-! ## The operations -/

section operations
variable (r : Byte) (s : State)

theorem exec_dectemp :
    exec (.dectemp r) s = .next (respond (.temperature (tempOf s.cfg r)) s) := rfl

theorem exec_decfan : exec (.decfan r) s = .next (respond (.level (fanLevel r)) s) := rfl

theorem exec_decsel : exec (.decsel r) s = .next (respond (.select (selectFlags r)) s) := rfl

theorem exec_decprg : exec (.decprg r) s = .next (respond (.program (programFlags r)) s) := rfl

theorem exec_decprg2 : exec (.decprg2 r) s = .next (respond (.program2 (program2Flags r)) s) := rfl

end operations

/-! ## The fan table -/

/-- Position `i` of the fan table holds the byte of `i + 1` low ones (00_scope R6). -/
theorem fanTable_getElem_toNat {i : Nat} (h : i < fanTable.length) :
    fanTable[i].toNat = 2 ^ (i + 1) - 1 := by
  revert i
  decide

/-- The level of a byte is one more than a position that holds it, or 0 when the fan table does not
hold it (43_registry R199). -/
theorem fanLevel_cases (r : Byte) :
    (∃ (i : Nat) (h : i < fanTable.length), fanLevel r = i + 1 ∧ fanTable[i] = r) ∨
    (fanLevel r = 0 ∧ r ∉ fanTable) := by
  unfold fanLevel
  split
  · next i hi =>
    obtain ⟨h, hget, -⟩ := List.findIdx?_eq_some_iff_getElem.mp hi
    exact .inl ⟨i, h, rfl, eq_of_beq hget⟩
  · next hnone =>
    have hne := List.findIdx?_eq_none_iff.mp hnone
    exact .inr ⟨rfl, fun hr => by simpa using hne r hr⟩

/-- The fan table holds the byte of `m` low ones for every level `m` of 1..8 (43_registry R199). -/
theorem mem_fanTable_of_toNat {r : Byte} {m : Nat} (h1 : 1 ≤ m) (h8 : m ≤ 8)
    (hr : r.toNat = 2 ^ m - 1) : r ∈ fanTable := by
  have hlt : m - 1 < fanTable.length := by
    change m - 1 < 8
    omega
  have hget : fanTable[m - 1] = r := by
    apply BitVec.eq_of_toNat_eq
    rw [fanTable_getElem_toNat hlt, Nat.sub_add_cancel h1, hr]
  exact hget ▸ List.getElem_mem hlt

/-! ## Bits as masks -/

/-- A bit of a byte read through its mask, as 43_registry R204 and R206 print it. -/
theorem getLsbD_eq_decide_mask (r : Byte) (i : Fin 8) :
    r.getLsbD i = decide (r &&& BitVec.twoPow 8 i ≠ 0) := by
  have hmask : BitVec.twoPow 8 i ≠ 0 := by
    revert i
    decide
  rw [BitVec.and_twoPow]
  cases r.getLsbD i with
  | false => simp
  | true => simpa using hmask

/-- Bit 0 is the parity of the byte's number (43_registry R208). -/
theorem getLsbD_zero_eq_decide_odd (r : Byte) : r.getLsbD 0 = decide (r.toNat % 2 = 1) :=
  Nat.testBit_zero r.toNat

/-- The low nibble as a number (43_registry R206). -/
theorem extractLsb'_nibble (r : Byte) : r.extractLsb' 0 4 = BitVec.ofNat 4 (r.toNat % 16) := by
  apply BitVec.eq_of_toNat_eq
  simp

/-- A Select byte by its masks (43_registry R204). -/
theorem selectFlags_eq_masks (r : Byte) : selectFlags r =
    { power := decide (r &&& 0x01 ≠ 0), co2Adjust := decide (r &&& 0x02 ≠ 0),
      rhAdjust := decide (r &&& 0x04 ≠ 0), heating := decide (r &&& 0x08 ≠ 0),
      filterGuard := decide (r &&& 0x10 ≠ 0), heatingInd := decide (r &&& 0x20 ≠ 0),
      faultInd := decide (r &&& 0x40 ≠ 0), serviceReminder := decide (r &&& 0x80 ≠ 0) } := by
  unfold selectFlags
  congr 1
  · exact getLsbD_eq_decide_mask r 0
  · exact getLsbD_eq_decide_mask r 1
  · exact getLsbD_eq_decide_mask r 2
  · exact getLsbD_eq_decide_mask r 3
  · exact getLsbD_eq_decide_mask r 4
  · exact getLsbD_eq_decide_mask r 5
  · exact getLsbD_eq_decide_mask r 6
  · exact getLsbD_eq_decide_mask r 7

/-- A Program byte by its low nibble and its masks (43_registry R206). -/
theorem programFlags_eq_masks (r : Byte) : programFlags r =
    { intervalMin := BitVec.ofNat 4 (r.toNat % 16), humiditySeeker := decide (r &&& 0x10 ≠ 0),
      boostSwitch := if r &&& 0x20 ≠ 0 then .boost else .fireplace,
      radiator := if r &&& 0x40 ≠ 0 then .water else .electric,
      cascadeAdjust := decide (r &&& 0x80 ≠ 0) } := by
  have h4 : r.getLsbD 4 = decide (r &&& 0x10 ≠ 0) := getLsbD_eq_decide_mask r 4
  have h5 : r.getLsbD 5 = decide (r &&& 0x20 ≠ 0) := getLsbD_eq_decide_mask r 5
  have h6 : r.getLsbD 6 = decide (r &&& 0x40 ≠ 0) := getLsbD_eq_decide_mask r 6
  have h7 : r.getLsbD 7 = decide (r &&& 0x80 ≠ 0) := getLsbD_eq_decide_mask r 7
  simp only [programFlags, extractLsb'_nibble, h4, h5, h6, h7, decide_eq_true_eq]

/-- A Program2 byte by its parity (43_registry R208). -/
theorem program2Flags_eq_odd (r : Byte) : program2Flags r =
    { maxSpeedLimit := if r.toNat % 2 = 1 then .always else .withAdjustment } := by
  simp only [program2Flags, getLsbD_zero_eq_decide_odd, decide_eq_true_eq]

/-! ## The obligations -/

/-- Settles O22: the bytes of the fan table are those of 1 to 8 low ones, in order. -/
theorem decfanAnswersLevel : Obligations.DecfanAnswersLevel := by
  unfold Obligations.DecfanAnswersLevel
  constructor
  · exact decode_requestWord_decfan
  · intro r s
    refine ⟨fanLevel r, exec_decfan r s, ?_⟩
    rcases fanLevel_cases r with ⟨i, hi, hlevel, rfl⟩ | ⟨hlevel, hr⟩
    · rw [hlevel]
      exact .inl ⟨Nat.le_add_left 1 i, hi, fanTable_getElem_toNat hi⟩
    · exact .inr ⟨hlevel, fun m h1 h8 hm => hr (mem_fanTable_of_toNat h1 h8 hm)⟩

/-- Settles O25: each flag is one bit, read through its mask. -/
theorem decselAnswersFlags : Obligations.DecselAnswersFlags := by
  unfold Obligations.DecselAnswersFlags
  constructor
  · exact decode_requestWord_decsel
  · intro r s
    rw [exec_decsel, selectFlags_eq_masks, respond]

/-- Settles O26: the interval is the low nibble, each other member one bit. -/
theorem decprgAnswersFields : Obligations.DecprgAnswersFields := by
  unfold Obligations.DecprgAnswersFields
  constructor
  · exact decode_requestWord_decprg
  · intro r s
    rw [exec_decprg, programFlags_eq_masks, respond]

/-- Settles O27: bit 0 is the parity of the byte. -/
theorem decprg2AnswersMode : Obligations.Decprg2AnswersMode := by
  unfold Obligations.Decprg2AnswersMode
  constructor
  · exact decode_requestWord_decprg2
  · intro r s
    rw [exec_decprg2, program2Flags_eq_odd, respond]

/-- Settles O28, by the seven kinds: each decodes the byte with the function its request answers. -/
theorem decodedValueFollowsKind : Obligations.DecodedValueFollowsKind := by
  unfold Obligations.DecodedValueFollowsKind
  constructor
  · intro c raw s
    unfold decodeValue
    cases (registryEntry s.cfg c).kind with
    | opaqueRaw => rfl
    | direct => rfl
    | temperature => exact exec_dectemp raw s
    | fanSpeed => exact exec_decfan raw s
    | select => exact exec_decsel raw s
    | program => exact exec_decprg raw s
    | program2 => exact exec_decprg2 raw s
  · intro c d raw cfg hkind
    unfold decodeValue
    rw [hkind]

end Machine
end Sys2Proof
end

section
/-! The BLD family (44_encoder): BLDSET as ENCODE addressed to the master. -/

namespace Sys2Proof

/-- Op 0x4 is BLDSET of the first three operand bytes (30_encoding R91). -/
theorem decode_requestWord_bldset (l c v x y z : Byte) :
    decode (.req52 (requestWord 0x4 l c v x y z)) = .ok (.bldset l c v) := by
  simp [decode, decodeRequest]

namespace Machine

/-- BLDSET is ENCODE with the master as receiver (44_encoder R231, R232). -/
theorem exec_bldset_eq_exec_encode (l c v : Byte) (s : State) :
    exec (.bldset l c v) s = exec (.encode l addrMaster c v) s := rfl

/-- Settles O16: BLDSET is an ENCODE, so what O12 says of ENCODE's frame holds of BLDSET's, with the
master's 0x11 as the receiver. -/
theorem bldsetAnswersFrame : Obligations.BldsetAnswersFrame := by
  unfold Obligations.BldsetAnswersFrame
  constructor
  · exact decode_requestWord_bldset
  · intro l c v s
    obtain ⟨k, hsum, hexec, hpoll, -⟩ := encodeAnswersFrame.2 l addrMaster c v s
    have hencode := exec_bldset_eq_exec_encode l c v s
    exact ⟨k, hsum, hencode.trans hexec, hencode, hpoll⟩

end Machine
end Sys2Proof
end

section
/-! The encoding family (30_encoding): what each op code decodes to, the three classes of a
telegram, and that decoding and encoding undo one another. -/

namespace Sys2Proof

/-! ## Request words -/

section decoding
variable (a0 a1 a2 a3 a4 a5 : Byte)

/-- Op 0x2 is VALIDATE of all six operand bytes (30_encoding R91). -/
theorem decode_requestWord_validate :
    decode (.req52 (requestWord 0x2 a0 a1 a2 a3 a4 a5)) = .ok (.validate a0 a1 a2 a3 a4 a5) := by
  simp [decode, decodeRequest]

/-- Op 0x3 is PUSHB of the first operand byte (30_encoding R91). -/
theorem decode_requestWord_pushb :
    decode (.req52 (requestWord 0x3 a0 a1 a2 a3 a4 a5)) = .ok (.pushb a0) := by
  simp [decode, decodeRequest]

/-- Op 0x5 is BLDPOLL of the first two operand bytes (30_encoding R91). -/
theorem decode_requestWord_bldpoll :
    decode (.req52 (requestWord 0x5 a0 a1 a2 a3 a4 a5)) = .ok (.bldpoll a0 a1) := by
  simp [decode, decodeRequest]

/-- Op 0x6 is REGLOOK of the first operand byte (30_encoding R91). -/
theorem decode_requestWord_reglook :
    decode (.req52 (requestWord 0x6 a0 a1 a2 a3 a4 a5)) = .ok (.reglook a0) := by
  simp [decode, decodeRequest]

/-- Op 0x7 is DECTEMP of the first operand byte (30_encoding R91). -/
theorem decode_requestWord_dectemp :
    decode (.req52 (requestWord 0x7 a0 a1 a2 a3 a4 a5)) = .ok (.dectemp a0) := by
  simp [decode, decodeRequest]

/-- Op 0x9 is ENCFAN of the first operand byte (30_encoding R91). -/
theorem decode_requestWord_encfan :
    decode (.req52 (requestWord 0x9 a0 a1 a2 a3 a4 a5)) = .ok (.encfan a0) := by
  simp [decode, decodeRequest]

/-- Op 0xD is RDVAR of the first operand byte (30_encoding R91). -/
theorem decode_requestWord_rdvar :
    decode (.req52 (requestWord 0xD a0 a1 a2 a3 a4 a5)) = .ok (.rdvar a0) := by
  simp [decode, decodeRequest]

/-- Op 0xE is RDTRAF of the first operand byte (30_encoding R91). -/
theorem decode_requestWord_rdtraf :
    decode (.req52 (requestWord 0xE a0 a1 a2 a3 a4 a5)) = .ok (.rdtraf a0) := by
  simp [decode, decodeRequest]

/-- Op 0xF is the reserved code, whatever the operand bytes (30_encoding R91, R98). -/
theorem decode_requestWord_reservedF :
    decode (.req52 (requestWord 0xF a0 a1 a2 a3 a4 a5)) = .ok .reservedF := by
  simp [decode, decodeRequest]

end decoding

/-- A request word decodes to a request, never to a telegram class (30_encoding R91). -/
theorem telegram_decodeRequest (w : BitVec 52) : (decodeRequest w).telegram = none := by
  unfold decodeRequest
  split <;> rfl

/-- A request is well formed whatever its operand bytes (30_encoding R97). -/
theorem wellFormed_of_request {i : Instr} (h : i.telegram = none) : i.wellFormed = true := by
  cases i with
  | tgPoll s r v k => cases h
  | tgReport s r c v k => cases h
  | tgRaw d s r c v k => cases h
  | _ => rfl

/-- A mask acts on a concatenation part by part. -/
theorem and_append_of_high {v w : Nat} {x x' z : BitVec v} {y y' : BitVec w} (h : x &&& x' = z) :
    (x ++ y) &&& (x' ++ y') = z ++ (y &&& y') := by
  rw [BitVec.and_append, h]

/-- A mask acts on a request word field by field. -/
theorem requestWord_and (op op' : BitVec 4) (a0 a1 a2 a3 a4 a5 b0 b1 b2 b3 b4 b5 : Byte) :
    requestWord op a0 a1 a2 a3 a4 a5 &&& requestWord op' b0 b1 b2 b3 b4 b5 =
      requestWord (op &&& op') (a0 &&& b0) (a1 &&& b1) (a2 &&& b2) (a3 &&& b3) (a4 &&& b4)
        (a5 &&& b5) := by
  unfold requestWord
  refine and_append_of_high ?_
  refine and_append_of_high ?_
  refine and_append_of_high ?_
  refine and_append_of_high ?_
  refine and_append_of_high ?_
  exact BitVec.and_append

namespace Machine

/-- How many of its operand bytes, from the first, a request's operation names (30_encoding R91). -/
def namedOperands (op : BitVec 4) : Nat :=
  match op.toNat with
  | 0x0 => 5
  | 0x1 => 4
  | 0x2 => 6
  | 0x4 => 3
  | 0x5 => 2
  | 0xF => 0
  | _ => 1

/-- The mask of operand byte `k` among `n` named ones: the whole byte or nothing. -/
def operandMask (n k : Nat) : Byte := if k < n then 0xFF else 0x00

theorem and_operandMask (a : Byte) (n k : Nat) :
    a &&& operandMask n k = if k < n then a else 0 := by
  unfold operandMask
  split
  · exact BitVec.and_allOnes
  · exact BitVec.and_zero

/-- The named bits are the op code and the named operand bytes (30_encoding R91). -/
theorem namedBits_eq_requestWord (op : BitVec 4) : namedBits op =
    requestWord 0xF (operandMask (namedOperands op) 0) (operandMask (namedOperands op) 1)
      (operandMask (namedOperands op) 2) (operandMask (namedOperands op) 3)
      (operandMask (namedOperands op) 4) (operandMask (namedOperands op) 5) := by
  revert op
  decide

/-- Decoding keeps the named operand bytes and encoding writes zeros for the rest. -/
theorem encode_decodeRequest_requestWord (op : BitVec 4) (a0 a1 a2 a3 a4 a5 : Byte) :
    encode (decodeRequest (requestWord op a0 a1 a2 a3 a4 a5)) =
      .req52 (requestWord op a0 a1 a2 a3 a4 a5 &&& namedBits op) := by
  rw [namedBits_eq_requestWord, requestWord_and]
  simp only [and_operandMask]
  obtain ⟨n, hn⟩ := op
  interval_cases n <;> simp [decodeRequest, encode, namedOperands]

end Machine

/-! ## Telegrams -/

/-- The third row of 30_encoding R99: any other domain. -/
theorem classify_raw {t : Telegram} (hk : t.checksum = Machine.telegramSum t)
    (hd : t.domain ≠ Machine.domainApp) :
    classify t = .ok (.tgRaw t.domain t.sender t.receiver t.command t.value t.checksum) := by
  unfold classify
  rw [if_neg (not_not.mpr hk), if_neg (fun h => hd h.1), if_neg hd]

/-- The side condition of 30_encoding R84 on all three rows. -/
theorem classify_badChecksum {t : Telegram} (hk : t.checksum ≠ Machine.telegramSum t) :
    classify t = .error (.badChecksum (Machine.telegramSum t) t.checksum) :=
  if_pos hk

/-- A telegram with the right checksum is of some class. -/
theorem exists_classify_ok {t : Telegram} (hk : t.checksum = Machine.telegramSum t) :
    ∃ i, classify t = .ok i := by
  by_cases hd : t.domain = Machine.domainApp
  · by_cases hc : t.command = Machine.pollMarker
    · exact ⟨_, classify_poll hk hd hc⟩
    · exact ⟨_, classify_report hk hd hc⟩
  · exact ⟨_, classify_raw hk hd⟩

/-- Classifying undoes `Instr.telegram` on the well-formed instructions (30_encoding R99). -/
theorem classify_telegram {i : Instr} {t : Telegram} (ht : i.telegram = some t)
    (h : i.wellFormed = true) : classify t = .ok i := by
  simp only [Instr.wellFormed, Bool.and_eq_true, Instr.sumOk, ht, decide_eq_true_eq] at h
  obtain ⟨hclass, hk⟩ := h
  cases i with
  | tgPoll s r v k => cases ht; exact classify_poll hk rfl rfl
  | tgReport s r c v k => cases ht; exact classify_report hk rfl (bne_iff_ne.mp hclass)
  | tgRaw d s r c v k => cases ht; exact classify_raw hk (bne_iff_ne.mp hclass)
  | _ => cases ht

/-- A telegram class is encoded as the pattern of its telegram (30_encoding R80, R99). -/
theorem encode_of_telegram {i : Instr} {t : Telegram} (h : i.telegram = some t) :
    encode i = .tg48 (telegramWord t) := by
  cases i with
  | tgPoll s r v k => cases h; rfl
  | tgReport s r c v k => cases h; rfl
  | tgRaw d s r c v k => cases h; rfl
  | _ => cases h

/-- A telegram's 48-bit pattern is classified as the telegram. -/
theorem decode_telegramWord (t : Telegram) : decode (.tg48 (telegramWord t)) = classify t := by
  rw [decode, telegramOfWord_telegramWord]

/-- A request is decoded back from its encoding (30_encoding R91). -/
theorem decode_encode_of_request {i : Instr} (h : i.telegram = none) :
    decode (encode i) = .ok i := by
  cases i with
  | cksum => exact decode_requestWord_cksum ..
  | encode => exact decode_requestWord_encode ..
  | validate => exact decode_requestWord_validate ..
  | pushb => exact decode_requestWord_pushb ..
  | bldset => exact decode_requestWord_bldset ..
  | bldpoll => exact decode_requestWord_bldpoll ..
  | reglook => exact decode_requestWord_reglook ..
  | dectemp => exact decode_requestWord_dectemp ..
  | decfan => exact decode_requestWord_decfan ..
  | encfan => exact decode_requestWord_encfan ..
  | decsel => exact decode_requestWord_decsel ..
  | decprg => exact decode_requestWord_decprg ..
  | decprg2 => exact decode_requestWord_decprg2 ..
  | rdvar => exact decode_requestWord_rdvar ..
  | rdtraf => exact decode_requestWord_rdtraf ..
  | reservedF => exact decode_requestWord_reservedF ..
  | tgPoll => cases h
  | tgReport => cases h
  | tgRaw => cases h

/-- Only six bytes are a telegram (30_encoding R85). -/
theorem unpack_eq_none {bs : List Byte} (h : bs.length ≠ 6) : Machine.unpack bs = none := by
  unfold Machine.unpack
  split
  · exact absurd rfl h
  · rfl

/-! ## The obligations -/

/-- Settles O1: a request has its own op code, and a telegram class is told from the others by its
well-formedness. -/
theorem decodeInvertsEncode : Obligations.DecodeInvertsEncode := by
  unfold Obligations.DecodeInvertsEncode
  intro i hwf
  cases ht : i.telegram with
  | none => exact decode_encode_of_request ht
  | some t => rw [encode_of_telegram ht, decode_telegramWord, classify_telegram ht hwf]

/-- Settles O2: the word read as its fields, of which encoding writes the named ones again. -/
theorem requestWordKeepsNamedBits : Obligations.RequestWordKeepsNamedBits := by
  unfold Obligations.RequestWordKeepsNamedBits
  intro w
  have hreq := telegram_decodeRequest w
  refine ⟨wellFormed_of_request hreq, Option.isNone_iff_eq_none.mpr hreq, rfl, ?_⟩
  have hfields := Machine.encode_decodeRequest_requestWord (requestOp w) (requestOperand w 0)
    (requestOperand w 1) (requestOperand w 2) (requestOperand w 3) (requestOperand w 4)
    (requestOperand w 5)
  rwa [requestWord_fields] at hfields

/-- Settles O3: the three rows of 30_encoding R99 in their order, under the side condition of the
checksum. -/
theorem telegramClassesInTableOrder : Obligations.TelegramClassesInTableOrder := by
  unfold Obligations.TelegramClassesInTableOrder
  refine ⟨?_, ?_, ?_, ?_⟩
  · intro d s r c v k hsum
    have hk : k = Machine.checksum5 d s r c v := (Machine.eq_checksum5_iff ..).mpr hsum.symm
    refine ⟨fun hd hc => ?_, fun hd hc => ?_, fun hd => ?_⟩
    · exact classify_poll (t := ⟨d, s, r, c, v, k⟩) hk hd hc
    · subst hd
      exact classify_report (t := ⟨1, s, r, c, v, k⟩) hk rfl hc
    · exact classify_raw (t := ⟨d, s, r, c, v, k⟩) hk hd
  · intro d s r c v k hsum
    have hk : k ≠ Machine.checksum5 d s r c v :=
      fun h => hsum ((Machine.eq_checksum5_iff ..).mp h).symm
    exact ⟨Machine.checksum5 d s r c v, classify_badChecksum (t := ⟨d, s, r, c, v, k⟩) hk,
      Machine.checksum5_toNat ..⟩
  · intro d s r c v k
    exact decode_telegramWord ⟨d, s, r, c, v, k⟩
  · intro bs hlen
    rw [decodeBytes, unpack_eq_none hlen]

/-- Settles O4: a request word read by its op code, a telegram by its class. -/
theorem printedWordsDecode : Obligations.PrintedWordsDecode := by
  unfold Obligations.PrintedWordsDecode
  refine ⟨?_, ?_, ?_, ?_, ?_, ?_, ?_, ?_, ?_, ?_⟩
  · exact decode_requestWord_cksum 0x01 0x11 0x20 0x00 0xA3 0x99
  · exact decode_requestWord_validate 0x01 0x11 0x21 0xA3 0x80 0x57
  · exact decode_requestWord_pushb 0x75 0xDE 0xAD 0xBE 0xEF 0x99
  · exact decode_requestWord_bldset 0x22 0x29 0x1F 0x00 0x00 0x00
  · exact decode_requestWord_decprg 0x6A 0x00 0x00 0x00 0x00 0x00
  · exact decode_requestWord_rdtraf 0x22 0x00 0x00 0x00 0x00 0x00
  · exact decode_requestWord_reservedF 0xFF 0xFF 0xFF 0xFF 0xFF 0xFF
  · exact classify_poll (t := ⟨0x01, 0x11, 0x20, 0x00, 0xA3, 0xD5⟩) rfl rfl rfl
  · exact classify_report (t := ⟨0x01, 0x22, 0x22, 0x29, 0x07, 0x75⟩) rfl rfl (by decide)
  · exact classify_raw (t := ⟨0x02, 0x11, 0x21, 0x29, 0x0F, 0x6C⟩) rfl (by decide)

end Sys2Proof
end

section
/-! What a push and any instruction can do to the state, said once for the families below: the three
outcomes of PUSHB as equations, the channels it does not read, and the effect on the tables. -/

namespace Sys2Proof.Machine

/-! ## The three outcomes of PUSHB -/

section push
variable {s : State} {b : Byte}

theorem exec_pushb (b : Byte) (s : State) : exec (.pushb b) s = execPushb b s := rfl

/-- PUSHB fills a window of fewer than five bytes (41_framesync R141, step 2). -/
theorem execPushb_fill (h : s.win.length < 5) :
    execPushb b s = .next (respond .empty (setWindow (s.win ++ [b]) s)) := by
  simp only [execPushb, syncStep_short _ _ h]

/-- PUSHB drops the oldest byte of an ill-formed candidate (41_framesync R141, step 3). -/
theorem execPushb_drop {w0 w1 w2 w3 w4 : Byte} (hwin : s.win = [w0, w1, w2, w3, w4])
    (hb : b ≠ checksum5 w0 w1 w2 w3 w4) : execPushb b s = .next (respond .empty
      (emit (.byteDropped w0 (checksum5 w0 w1 w2 w3 w4) b) (setWindow [w1, w2, w3, w4, b] s))) := by
  have hexamine := (examine_cases w0 w1 w2 w3 w4 b).resolve_left fun h => hb h.1
  simp only [execPushb, hwin, syncStep_five, hexamine.2]

/-- The state in which an accepted telegram is dispatched (41_framesync R146). -/
def acceptFrame (tg : Telegram) (s : State) : State :=
  respond .empty (emit (.frameAccepted tg) (setWindow [] s))

/-- PUSHB dispatches the telegram that a well-formed candidate is (41_framesync R146). -/
theorem execPushb_checksum {tg : Telegram} (hwin : s.win = leading tg)
    (hk : tg.checksum = telegramSum tg) :
    execPushb tg.checksum s = .next (dispatchTelegram tg (acceptFrame tg s)) := by
  have hexamine := (examine_cases tg.domain tg.sender tg.receiver tg.command tg.value
    tg.checksum).resolve_right fun h => h.1 hk
  simp only [execPushb, hwin, leading, syncStep_five, hexamine.2, acceptFrame]

/-- What PUSHB can answer, in the terms of the three outcomes. -/
theorem execPushb_next_cases {t : State} (h : execPushb b s = .next t) :
    (s.win.length < 5 ∧ t = respond .empty (setWindow (s.win ++ [b]) s)) ∨
    (∃ w0 w1 w2 w3 w4, s.win = [w0, w1, w2, w3, w4] ∧ b ≠ checksum5 w0 w1 w2 w3 w4 ∧
      t = respond .empty (emit (.byteDropped w0 (checksum5 w0 w1 w2 w3 w4) b)
        (setWindow [w1, w2, w3, w4, b] s))) ∨
    (∃ tg, s.win = leading tg ∧ b = tg.checksum ∧ tg.checksum = telegramSum tg ∧
      t = dispatchTelegram tg (acceptFrame tg s)) := by
  rcases execPushb_cases b s with ⟨hl, he⟩ | ⟨w0, w1, w2, w3, w4, hwin, hb, he⟩ |
    ⟨w0, w1, w2, w3, w4, hwin, hb, he⟩ | ⟨-, he⟩
  · cases h.symm.trans he
    exact .inl ⟨hl, rfl⟩
  · cases h.symm.trans he
    exact .inr (.inl ⟨w0, w1, w2, w3, w4, hwin, hb, rfl⟩)
  · cases h.symm.trans he
    exact .inr (.inr ⟨⟨w0, w1, w2, w3, w4, b⟩, hwin, rfl, hb, rfl⟩)
  · cases h.symm.trans he

end push

section acceptFrame
variable (tg : Telegram) (s : State)
@[simp] theorem acceptFrame_win : (acceptFrame tg s).win = [] := rfl
@[simp] theorem acceptFrame_var : (acceptFrame tg s).var = s.var := rfl
@[simp] theorem acceptFrame_traf : (acceptFrame tg s).traf = s.traf := rfl
@[simp] theorem acceptFrame_cfg : (acceptFrame tg s).cfg = s.cfg := rfl
@[simp] theorem acceptFrame_inbox : (acceptFrame tg s).inbox = s.inbox := rfl
@[simp] theorem acceptFrame_rsp : (acceptFrame tg s).rsp = some (.ok .empty) := rfl
@[simp] theorem acceptFrame_evs :
    (acceptFrame tg s).evs = s.evs ++ [.frameAccepted tg] := rfl
end acceptFrame

section dispatchTelegram
variable (tg : Telegram) (s : State)

@[simp] theorem dispatchTelegram_win : (dispatchTelegram tg s).win = s.win := by
  obtain ⟨hwin, -⟩ := dispatchTelegram_frame tg s
  exact hwin

@[simp] theorem dispatchTelegram_cfg : (dispatchTelegram tg s).cfg = s.cfg := by
  obtain ⟨-, hcfg, -⟩ := dispatchTelegram_frame tg s
  exact hcfg

@[simp] theorem dispatchTelegram_inbox : (dispatchTelegram tg s).inbox = s.inbox := by
  obtain ⟨-, -, hinbox, -⟩ := dispatchTelegram_frame tg s
  exact hinbox

@[simp] theorem dispatchTelegram_rsp : (dispatchTelegram tg s).rsp = s.rsp := by
  obtain ⟨-, -, -, hrsp, -⟩ := dispatchTelegram_frame tg s
  exact hrsp

theorem dispatchTelegram_traf : (dispatchTelegram tg s).traf = (countTraffic tg s).traf := by
  obtain ⟨-, -, -, -, htraf⟩ := dispatchTelegram_frame tg s
  exact htraf

end dispatchTelegram

/-- The response of PUSHB is `Ok` and empty in every case (41_framesync R146). -/
theorem execPushb_rsp {b : Byte} {s t : State} (h : execPushb b s = .next t) :
    t.rsp = some (.ok .empty) := by
  rcases execPushb_next_cases h with ⟨-, rfl⟩ | ⟨_, _, _, _, _, -, -, rfl⟩ | ⟨tg, -, -, -, rfl⟩
  · rfl
  · rfl
  · exact dispatchTelegram_rsp ..

/-! ## The channels -/

/-- The state with other contents of its request, response and event channels (logs 1 and 2). -/
def withChannels (l : List HostInput) (r : Option Response) (es : List Event) (s : State) : State :=
  { s with inbox := l, rsp := r, evs := es }

/-- The events DISPATCH emits, which depend on the configuration and the telegram alone
(42_dispatch R170). -/
def dispatchEvents (c : Config) (tg : Telegram) : List Event :=
  if tg.domain ≠ 1 then [.rawTraffic tg.sender tg.receiver (describe c tg)]
  else if tg.receiver ∈ localSet c then
    [.variableUpdated tg.command tg.value (decodeValue c tg.command tg.value)]
  else []

theorem dispatchEvents_raw (c : Config) {tg : Telegram} (h : tg.domain ≠ 1) :
    dispatchEvents c tg = [.rawTraffic tg.sender tg.receiver (describe c tg)] :=
  if_pos h

theorem dispatchEvents_local {c : Config} {tg : Telegram} (hd : tg.domain = 1)
    (hr : LocalReceiver c tg.receiver) : dispatchEvents c tg =
      [.variableUpdated tg.command tg.value (decodeValue c tg.command tg.value)] := by
  rw [dispatchEvents, if_neg (not_not.mpr hd), if_pos ((mem_localSet ..).mpr hr)]

theorem dispatchEvents_not_local {c : Config} {tg : Telegram} (hd : tg.domain = 1)
    (hr : ¬ LocalReceiver c tg.receiver) : dispatchEvents c tg = [] := by
  rw [dispatchEvents, if_neg (not_not.mpr hd), if_neg (fun h => hr ((mem_localSet ..).mp h))]

/-- DISPATCH appends its events, and neither reads nor writes a channel otherwise. -/
theorem dispatchTelegram_withChannels (tg : Telegram) (s : State) (l : List HostInput)
    (r : Option Response) (es : List Event) : dispatchTelegram tg (withChannels l r es s) =
      withChannels l r (es ++ dispatchEvents s.cfg tg) (dispatchTelegram tg s) := by
  have hcfg : (countTraffic tg s).cfg = s.cfg := rfl
  have hcfg' : (countTraffic tg (withChannels l r es s)).cfg = s.cfg := rfl
  simp only [dispatchTelegram, dispatchEvents, hcfg, hcfg', isApp, domainApp]
  split
  · rfl
  · split
    · rfl
    · exact congrArg (withChannels l r · (countTraffic tg s)) (List.append_nil es).symm

theorem dispatchTelegram_evs (tg : Telegram) (s : State) :
    (dispatchTelegram tg s).evs = s.evs ++ dispatchEvents s.cfg tg :=
  congrArg State.evs (dispatchTelegram_withChannels tg s s.inbox s.rsp s.evs)

/-- What DISPATCH emits is not an event of the synchronizer (41_framesync R141). -/
theorem syncEvents_dispatchEvents (c : Config) (tg : Telegram) :
    syncEvents (dispatchEvents c tg) = [] := by
  unfold dispatchEvents
  split
  · rfl
  · split
    · rfl
    · rfl

theorem acceptFrame_withChannels (tg : Telegram) (s : State) (l : List HostInput)
    (r : Option Response) (es : List Event) : acceptFrame tg (withChannels l r es s) =
      withChannels l (some (.ok .empty)) (es ++ [.frameAccepted tg]) (acceptFrame tg s) := rfl

/-- PUSHB appends its events, and reads no channel. -/
theorem execPushb_withChannels {b : Byte} {s t : State} (h : execPushb b s = .next t) :
    ∃ fs, ∀ l r es, execPushb b (withChannels l r es s) =
      .next (withChannels l (some (.ok .empty)) (es ++ fs) t) := by
  rcases execPushb_next_cases h with ⟨hl, rfl⟩ | ⟨w0, w1, w2, w3, w4, hwin, hb, rfl⟩ |
    ⟨tg, hwin, rfl, hk, rfl⟩
  · refine ⟨[], fun l r es => ?_⟩
    rw [execPushb_fill (s := withChannels l r es s) hl, List.append_nil]
    rfl
  · exact ⟨_, fun l r es => execPushb_drop hwin hb⟩
  · refine ⟨[.frameAccepted tg] ++ dispatchEvents s.cfg tg, fun l r es => ?_⟩
    rw [execPushb_checksum (tg := tg) (s := withChannels l r es s) hwin hk,
      acceptFrame_withChannels, dispatchTelegram_withChannels, List.append_assoc,
      acceptFrame_cfg]

/-! ## The effect on the state -/

/-- Everything an instruction can do to what a run keeps: the configuration and the host's list
stay, a window at rest stays at rest, at most one variable is updated (42_dispatch R165) and at most
one telegram counted (42_dispatch R162). -/
structure Effect (s t : State) : Prop where
  cfg : t.cfg = s.cfg
  inbox : t.inbox = s.inbox
  win_length : s.win.length ≤ 5 → t.win.length ≤ 5
  var : t.var = s.var ∨
    ∃ c v, t.var = tableSet s.var c ⟨v, incCounter s.cfg (varCount s.var c)⟩
  traf : t.traf = s.traf ∨
    ∃ tg : Telegram, TrafficCounted s.cfg tg.sender tg.receiver s.traf t.traf ∧
      (tableWf s.traf → tableWf t.traf)

theorem dispatchTelegram_effect (tg : Telegram) (s : State) :
    Effect s (dispatchTelegram tg s) where
  cfg := dispatchTelegram_cfg ..
  inbox := dispatchTelegram_inbox ..
  win_length h := (dispatchTelegram_win tg s).symm ▸ h
  var := by
    rcases dispatchTelegram_cases tg s with ⟨-, h⟩ | ⟨-, -, h⟩ | ⟨-, -, h⟩ <;> rw [h]
    · exact .inl rfl
    · exact .inr ⟨tg.command, tg.value, rfl⟩
    · exact .inl rfl
  traf := by
    rw [dispatchTelegram_traf]
    exact .inr ⟨tg, countTraffic_counted tg s, countTraffic_wf tg s⟩

theorem execPushb_effect {b : Byte} {s t : State} (h : execPushb b s = .next t) : Effect s t := by
  rcases execPushb_next_cases h with ⟨hl, rfl⟩ | ⟨w0, w1, w2, w3, w4, -, -, rfl⟩ |
    ⟨tg, -, -, -, rfl⟩
  · exact ⟨rfl, rfl, fun _ => by simpa using hl, .inl rfl, .inl rfl⟩
  · exact ⟨rfl, rfl, fun _ => le_rfl, .inl rfl, .inl rfl⟩
  · obtain ⟨hcfg, hinbox, hwin, hvar, htraf⟩ := dispatchTelegram_effect tg (acceptFrame tg s)
    exact ⟨hcfg, hinbox, fun _ => hwin (Nat.zero_le 5), hvar, htraf⟩

/-- The events before a push do not matter to it. -/
theorem execPushb_withEvents {b : Byte} {s t : State} (h : execPushb b s = .next t) :
    ∃ fs, ∀ es, execPushb b { s with evs := es } = .next { t with evs := es ++ fs } := by
  obtain ⟨fs, hfs⟩ := execPushb_withChannels h
  refine ⟨fs, fun es => (hfs s.inbox s.rsp es).trans ?_⟩
  rw [withChannels, ← (execPushb_effect h).inbox, ← execPushb_rsp h]

/-- An instruction is a pure request, a push or a telegram class. -/
theorem instr_cases (i : Instr) :
    isPure i = true ∨ (∃ b, i = .pushb b) ∨ ∃ tg, i.telegram = some tg := by
  cases htg : i.telegram with
  | none => exact (isPure_or_pushb htg).imp_right .inl
  | some tg => exact .inr (.inr ⟨tg, rfl⟩)

theorem exec_effect {i : Instr} {s t : State} (h : exec i s = .next t) : Effect s t := by
  rcases instr_cases i with hp | ⟨b, rfl⟩ | ⟨tg, htg⟩
  · obtain ⟨r, he⟩ := exec_of_isPure hp s
    cases he.symm.trans h
    exact ⟨rfl, rfl, id, .inl rfl, .inl rfl⟩
  · exact execPushb_effect h
  · cases (exec_of_telegram htg s).symm.trans h
    exact dispatchTelegram_effect tg s

/-! ## Batches -/

/-- A batch that answers a next state does so push by push (41_framesync R148). -/
theorem pushBatch_cons_next {b : Byte} {bs : List Byte} {s t : State}
    (h : pushBatch (b :: bs) s = .next t) :
    ∃ u, execPushb b s = .next u ∧ pushBatch bs u = .next t := by
  rw [pushBatch] at h
  split at h
  case h_1 u hu => exact ⟨u, hu, h⟩
  case h_2 => cases h
  case h_3 => cases h

end Sys2Proof.Machine
end

section
/-! The FRAMESYNC family (41_framesync): PUSHB case by case, batches, and streams as the greedy
scan. -/

namespace Sys2Proof.Machine

/-! ## The scan -/

/-- Fewer than six bytes hold no candidate (41_framesync R143). -/
theorem scan_short {xs : List Byte} (h : xs.length < 6) : scan xs = ([], xs) := by
  match xs, h with
  | [], _ => rfl
  | [_], _ => rfl
  | [_, _], _ => rfl
  | [_, _, _], _ => rfl
  | [_, _, _, _], _ => rfl
  | [_, _, _, _, _], _ => rfl

/-- A well-formed first candidate is accepted whole (41_framesync R143). -/
theorem scan_accept {b0 b1 b2 b3 b4 b5 : Byte} (h : b5 = checksum5 b0 b1 b2 b3 b4)
    (rest : List Byte) : scan (b0 :: b1 :: b2 :: b3 :: b4 :: b5 :: rest) =
      (.frameAccepted ⟨b0, b1, b2, b3, b4, b5⟩ :: (scan rest).1, (scan rest).2) := by
  rw [scan, List.length_cons, scanFuel]
  simp only [if_pos h.symm]
  rw [scanFuel_enough _ rest (by simp only [List.length_cons]; omega)]

/-- An ill-formed first candidate loses its first byte (41_framesync R143). -/
theorem scan_drop {b0 b1 b2 b3 b4 b5 : Byte} (h : b5 ≠ checksum5 b0 b1 b2 b3 b4)
    (rest : List Byte) : scan (b0 :: b1 :: b2 :: b3 :: b4 :: b5 :: rest) =
      (.byteDropped b0 (checksum5 b0 b1 b2 b3 b4) b5 ::
          (scan (b1 :: b2 :: b3 :: b4 :: b5 :: rest)).1,
        (scan (b1 :: b2 :: b3 :: b4 :: b5 :: rest)).2) := by
  rw [scan, List.length_cons, scanFuel]
  simp only [if_neg (Ne.symm h)]
  rw [scanFuel_enough _ (b1 :: b2 :: b3 :: b4 :: b5 :: rest) le_rfl]

/-! ## What a list of events accounts for -/

theorem eventBytes_of_not_sync {e : Event} (h : isSyncEvent e = false) : eventBytes e = [] := by
  cases e with
  | frameAccepted t => cases h
  | byteDropped d x r => cases h
  | variableUpdated c r d => rfl
  | rawTraffic a r d => rfl

/-- The bytes of an event are six for an accept, one for a drop (41_framesync R144). -/
theorem length_eventBytes (e : Event) : (eventBytes e).length =
    6 * (if isAccept e then 1 else 0) + (if isDrop e then 1 else 0) := by
  cases e <;> rfl

/-- The bytes of a list of events by the numbers of accepts and drops (41_framesync R144). -/
theorem length_flatMap_eventBytes (es : List Event) :
    (es.flatMap eventBytes).length = 6 * acceptCount es + dropCount es := by
  induction es with
  | nil => rfl
  | cons e es ih =>
    simp only [acceptCount, dropCount] at ih ⊢
    rw [List.flatMap_cons, List.length_append, ih, length_eventBytes, List.countP_cons,
      List.countP_cons]
    omega

/-- Events that are not the synchronizer's account for no byte. -/
theorem flatMap_eventBytes_of_syncEvents_nil {es : List Event} (h : syncEvents es = []) :
    es.flatMap eventBytes = [] := by
  rw [List.flatMap_eq_nil_iff]
  intro e he
  exact eventBytes_of_not_sync (by simpa using List.filter_eq_nil_iff.mp h e he)

theorem acceptCount_of_syncEvents_nil {es : List Event} (h : syncEvents es = []) :
    acceptCount es = 0 := by
  have hlen := congrArg List.length (flatMap_eventBytes_of_syncEvents_nil h)
  rw [length_flatMap_eventBytes, List.length_nil] at hlen
  omega

/-! ## Streams -/

/-- Pushing `bs` from `s` to `t` emitted `es`: it leaves a window at rest, accounts for every byte
(41_framesync R144), does what the scan does on whatever follows (R143), and touches no table
without an accept (R146). -/
structure PushRun (bs : List Byte) (s t : State) (es : List Event) : Prop where
  win_length : t.win.length ≤ 5
  evs : t.evs = s.evs ++ es
  bytes : s.win ++ bs = es.flatMap eventBytes ++ t.win
  scan : ∀ rest, scan (s.win ++ (bs ++ rest)) =
    (syncEvents es ++ (scan (t.win ++ rest)).1, (scan (t.win ++ rest)).2)
  tables : acceptCount es = 0 → t.var = s.var ∧ t.traf = s.traf

theorem PushRun.nil {s : State} (h : s.win.length ≤ 5) : PushRun [] s s [] where
  win_length := h
  evs := (List.append_nil _).symm
  bytes := List.append_nil _
  scan _ := rfl
  tables _ := ⟨rfl, rfl⟩

theorem PushRun.append {as bs : List Byte} {s t u : State} {ds es : List Event}
    (h : PushRun as s t ds) (h' : PushRun bs t u es) : PushRun (as ++ bs) s u (ds ++ es) where
  win_length := h'.win_length
  evs := by rw [h'.evs, h.evs, List.append_assoc]
  bytes := by
    rw [← List.append_assoc, h.bytes, List.append_assoc, h'.bytes, List.flatMap_append,
      List.append_assoc]
  scan rest := by
    rw [List.append_assoc, h.scan, h'.scan, syncEvents_append, List.append_assoc]
  tables hn := by
    rw [acceptCount_append] at hn
    obtain ⟨hvar, htraf⟩ := h.tables (by omega)
    obtain ⟨hvar', htraf'⟩ := h'.tables (by omega)
    exact ⟨hvar'.trans hvar, htraf'.trans htraf⟩

/-- The step of the scan that an accept is. -/
theorem pushRun_accept {tg : Telegram} {s : State} (hwin : s.win = leading tg)
    (hk : tg.checksum = telegramSum tg) :
    PushRun [tg.checksum] s (dispatchTelegram tg (acceptFrame tg s))
      (.frameAccepted tg :: dispatchEvents s.cfg tg) where
  win_length := by simp
  evs := by simp [dispatchTelegram_evs]
  bytes := by
    rw [List.flatMap_cons, flatMap_eventBytes_of_syncEvents_nil (syncEvents_dispatchEvents ..),
      hwin]
    simp [eventBytes, pack_eq_leading]
  scan rest := by
    have hsync : syncEvents (.frameAccepted tg :: dispatchEvents s.cfg tg) = [.frameAccepted tg] :=
      congrArg (List.cons _) (syncEvents_dispatchEvents s.cfg tg)
    rw [hwin, hsync, dispatchTelegram_win, acceptFrame_win]
    exact scan_accept hk rest
  tables hn := by simp [acceptCount, isAccept] at hn

/-- A push from a window at rest: it fills, drops or accepts, each as the scan does. -/
theorem execPushb_pushRun (b : Byte) {s : State} (h : s.win.length ≤ 5) :
    ∃ t es, execPushb b s = .next t ∧ PushRun [b] s t es := by
  obtain ⟨t, ht, hrest, -⟩ := execPushb_next b s h
  rcases execPushb_next_cases ht with ⟨hl, rfl⟩ | ⟨w0, w1, w2, w3, w4, hwin, hb, rfl⟩ |
    ⟨tg, hwin, rfl, hk, rfl⟩
  · refine ⟨_, [], ht, hrest, by simp, by simp, fun rest => ?_, fun _ => ⟨rfl, rfl⟩⟩
    simp [syncEvents]
  · refine ⟨_, [.byteDropped w0 (checksum5 w0 w1 w2 w3 w4) b], ht, hrest, rfl, ?_, fun rest => ?_,
      fun _ => ⟨rfl, rfl⟩⟩
    · simp [hwin, eventBytes]
    · rw [hwin]
      exact scan_drop hb rest
  · exact ⟨_, _, ht, pushRun_accept hwin hk⟩

/-- A stream from a window at rest, by its pushes. -/
theorem pushBatch_pushRun (bs : List Byte) {s : State} (h : s.win.length ≤ 5) :
    ∃ t es, pushBatch bs s = .next t ∧ PushRun bs s t es := by
  induction bs generalizing s with
  | nil => exact ⟨s, [], rfl, .nil h⟩
  | cons b bs ih =>
    obtain ⟨t, ds, ht, hd⟩ := execPushb_pushRun b h
    obtain ⟨u, es, hu, he⟩ := ih hd.win_length
    exact ⟨u, ds ++ es, (pushBatch_cons ht bs).trans hu, hd.append he⟩

/-! ## The obligations on streams -/

/-- Settles O34: each push is a step of the scan, and the scan of the window left finds nothing. -/
theorem streamIsGreedyScan : Obligations.StreamIsGreedyScan := by
  unfold Obligations.StreamIsGreedyScan
  refine ⟨fun xs => scan_short, ?_, ?_, ?_⟩
  · intro b0 b1 b2 b3 b4 b5 rest hsum
    exact scan_accept ((eq_checksum5_iff ..).mpr hsum) rest
  · intro b0 b1 b2 b3 b4 b5 e rest hsum hne
    obtain rfl := (eq_checksum5_iff ..).mpr hsum
    exact scan_drop hne.symm rest
  · intro bs s h
    obtain ⟨t, es, ht, hrun⟩ := pushBatch_pushRun bs h
    have hscan := hrun.scan []
    rw [List.append_nil, List.append_nil, scan_short (Nat.lt_succ_of_le hrun.win_length),
      List.append_nil] at hscan
    rw [hscan]
    exact ⟨t, ht, rfl, by rw [hrun.evs, syncEvents_append]⟩

/-- Settles O35: the bytes that the events of a run account for, in order, and their number. -/
theorem everyPushedByteIsAccounted : Obligations.EveryPushedByteIsAccounted := by
  unfold Obligations.EveryPushedByteIsAccounted
  intro bs s h
  obtain ⟨t, es, ht, hrun⟩ := pushBatch_pushRun bs h
  refine ⟨t, es, ht, hrun.evs, hrun.bytes, ?_⟩
  have hlen := congrArg List.length hrun.bytes
  rwa [List.length_append, List.length_append, length_flatMap_eventBytes] at hlen

/-! ## Pushes into a short window -/

/-- Pushes that the window has room for are silent (41_framesync R142). -/
theorem pushBatch_fill (b : Byte) (bs : List Byte) {s : State}
    (h : s.win.length + bs.length < 5) : pushBatch (b :: bs) s =
      .next (respond .empty (setWindow (s.win ++ b :: bs) s)) := by
  induction bs generalizing b s with
  | nil => rw [pushBatch_cons (execPushb_fill h), pushBatch]
  | cons b' bs ih =>
    rw [List.length_cons] at h
    rw [pushBatch_cons (execPushb_fill (by omega)), ih]
    · simp only [respond, setWindow, List.append_assoc, List.singleton_append]
    · simp only [respond_win, setWindow_win, List.length_append, List.length_singleton]
      omega

/-- The six bytes of a well-formed telegram, pushed into an empty window, are accepted and
dispatched (41_framesync R146). -/
theorem pushBatch_frame {tg : Telegram} {s : State} (hwin : s.win = [])
    (hk : tg.checksum = telegramSum tg) :
    pushBatch (pack tg) s = .next (dispatchTelegram tg (acceptFrame tg s)) := by
  have hfill : pushBatch (leading tg) s = .next (respond .empty (setWindow (leading tg) s)) := by
    rw [leading, pushBatch_fill _ _ (by simp [hwin]), hwin, List.nil_append]
  rw [pack_eq_leading, pushBatch_append _ hfill, pushBatch_cons (execPushb_checksum rfl hk),
    pushBatch]
  rfl

/-! ## Runs of one byte -/

/-- Six equal bytes are a telegram exactly when five of them sum to one (40_codec section 4). -/
theorem eq_checksum5_replicate_iff (x : Byte) :
    x = checksum5 x x x x x ↔ x = 0x00 ∨ x = 0x40 ∨ x = 0x80 ∨ x = 0xC0 := by
  revert x
  decide

theorem validate6_replicate_ne_none_iff (x : Byte) : validate6 (List.replicate 6 x) ≠ none ↔
    x = 0x00 ∨ x = 0x40 ∨ x = 0x80 ∨ x = 0xC0 :=
  (validate6_six_ne_none_iff ..).trans (eq_checksum5_replicate_iff x)

/-- A run of any other byte holds no well-formed window. -/
theorem noFrame_replicate {x : Byte} (h : ¬ (x = 0x00 ∨ x = 0x40 ∨ x = 0x80 ∨ x = 0xC0)) (n : Nat) :
    NoFrame (List.replicate n x) := by
  intro i hi
  rw [List.length_replicate] at hi
  rw [List.drop_replicate, List.take_replicate, min_eq_left (by omega)]
  by_contra hv
  exact h ((validate6_replicate_ne_none_iff x).mp hv)

/-- The telegram of six equal bytes. -/
def constantFrame (x : Byte) : Telegram := ⟨x, x, x, x, x, x⟩

/-- Six equal bytes of domain other than 1 are accepted, counted and reported (42_dispatch R170). -/
theorem pushBatch_constantFrame {x : Byte} {s : State} (hwin : s.win = [])
    (hx : x = 0x00 ∨ x = 0x40 ∨ x = 0x80 ∨ x = 0xC0) : ∃ t,
      pushBatch (List.replicate 6 x) s = .next t ∧ t.win = [] ∧ t.var = s.var ∧
      t.evs = s.evs ++ [.frameAccepted (constantFrame x),
        .rawTraffic x x (describe s.cfg (constantFrame x))] := by
  have hk : x = checksum5 x x x x x := (eq_checksum5_replicate_iff x).mpr hx
  have hdomain : (constantFrame x).domain ≠ 1 := by
    rcases hx with rfl | rfl | rfl | rfl <;> decide
  refine ⟨_, pushBatch_frame (tg := constantFrame x) hwin hk, dispatchTelegram_win .., ?_, ?_⟩
  · exact dispatchTelegram_var_not_local fun h => hdomain h.1
  · rw [dispatchTelegram_evs, dispatchEvents_raw _ hdomain, acceptFrame_evs, List.append_assoc]
    rfl

/-- `6 n` such bytes are `n` accepts and no drop. -/
theorem pushBatch_constantFrames {x : Byte} {s : State} (hwin : s.win = [])
    (hx : x = 0x00 ∨ x = 0x40 ∨ x = 0x80 ∨ x = 0xC0) (n : Nat) : ∃ t,
      pushBatch (List.replicate (6 * n) x) s = .next t ∧ t.win = [] ∧ t.var = s.var ∧
      acceptCount t.evs = acceptCount s.evs + n ∧ dropCount t.evs = dropCount s.evs := by
  induction n generalizing s with
  | zero => exact ⟨s, rfl, hwin, rfl, rfl, rfl⟩
  | succ n ih =>
    obtain ⟨t, ht, htwin, htvar, htevs⟩ := pushBatch_constantFrame hwin hx
    obtain ⟨u, hu, huwin, huvar, haccept, hdrop⟩ := ih htwin
    refine ⟨u, ?_, huwin, huvar.trans htvar, ?_, ?_⟩
    · rw [Nat.mul_succ, Nat.add_comm, List.replicate_add, pushBatch_append _ ht, hu]
    · rw [haccept, htevs, acceptCount_append]
      change acceptCount s.evs + 1 + n = acceptCount s.evs + (n + 1)
      omega
    · rw [hdrop, htevs, dropCount_append]
      rfl

/-- A run of any other byte is dropped byte by byte but for the last five (41_framesync R142). -/
theorem pushBatch_constantDrops {x : Byte} {s : State} (hwin : s.win = [])
    (hx : ¬ (x = 0x00 ∨ x = 0x40 ∨ x = 0x80 ∨ x = 0xC0)) (n : Nat) : ∃ t,
      pushBatch (List.replicate n x) s = .next t ∧
      t.win = List.replicate (min n 5) x ∧ t.var = s.var ∧ t.traf = s.traf ∧
      acceptCount t.evs = acceptCount s.evs ∧ dropCount t.evs = dropCount s.evs + (n - 5) := by
  obtain ⟨t, ds, ht, hdrops⟩ := pushBatch_dropRun (s := s) (bs := List.replicate n x)
    (by simp [hwin]) (by rw [hwin]; exact noFrame_replicate hx n)
  obtain ⟨t', es, ht', hrun⟩ := pushBatch_pushRun (List.replicate n x) (s := s) (by simp [hwin])
  cases ht.symm.trans ht'
  obtain rfl := List.append_cancel_left (hdrops.evs.symm.trans hrun.evs)
  obtain ⟨hvar, htraf⟩ := hrun.tables hdrops.drops.acceptCount
  have hlen := hdrops.length_drops
  have hwlen := hdrops.win_length
  have hbytes := hdrops.bytes
  rw [hwin, List.length_replicate, List.length_nil, Nat.zero_add] at hlen hwlen
  rw [hwin, List.nil_append] at hbytes
  refine ⟨t, ht, ?_, hvar, htraf, ?_, ?_⟩
  · rw [min_comm, ← hwlen]
    refine List.eq_replicate_of_mem fun y hy => List.eq_of_mem_replicate (n := n) ?_
    rw [hbytes]
    exact List.mem_append_right _ hy
  · rw [hdrops.evs, acceptCount_append, hdrops.drops.acceptCount, Nat.add_zero]
  · rw [hdrops.evs, dropCount_append, hdrops.drops.dropCount, hlen]

/-! ## Batches -/

/-- A batch appends its events, and reads no channel. -/
theorem pushBatch_withEvents {bs : List Byte} {s t : State} (h : pushBatch bs s = .next t) :
    ∃ fs, ∀ es, pushBatch bs { s with evs := es } = .next { t with evs := es ++ fs } := by
  induction bs generalizing s with
  | nil =>
    cases h
    exact ⟨[], fun es => by rw [List.append_nil, pushBatch]⟩
  | cons b bs ih =>
    obtain ⟨u, hu, ht⟩ := pushBatch_cons_next h
    obtain ⟨ds, hds⟩ := execPushb_withEvents hu
    obtain ⟨fs, hfs⟩ := ih ht
    refine ⟨ds ++ fs, fun es => ?_⟩
    rw [pushBatch_cons (hds es), hfs, List.append_assoc]

/-! ## The obligations on one push -/

/-- Settles O29, the case of a short window. -/
theorem pushbFillsWindow : Obligations.PushbFillsWindow := by
  unfold Obligations.PushbFillsWindow
  exact ⟨decode_requestWord_pushb, fun b s h => execPushb_fill h⟩

/-- Settles O30, the case of an ill-formed candidate. -/
theorem pushbDropsOldestByte : Obligations.PushbDropsOldestByte := by
  unfold Obligations.PushbDropsOldestByte
  intro w0 w1 w2 w3 w4 b e s hwin hsum hne
  obtain rfl := (eq_checksum5_iff ..).mpr hsum
  exact execPushb_drop hwin hne.symm

/-- Settles O31, the case of a well-formed candidate: every class of 30_encoding R99 means
DISPATCH. -/
theorem pushbAcceptsWellFormedWindow : Obligations.PushbAcceptsWellFormedWindow := by
  unfold Obligations.PushbAcceptsWellFormedWindow
  intro w0 w1 w2 w3 w4 b s hwin hsum
  let tg : Telegram := ⟨w0, w1, w2, w3, w4, b⟩
  have hk : tg.checksum = telegramSum tg := (eq_checksum5_iff ..).mpr hsum
  obtain ⟨i, hi⟩ := exists_classify_ok hk
  have hpush : exec (.pushb b) s = .next (dispatchTelegram tg (acceptFrame tg s)) :=
    execPushb_checksum hwin hk
  refine ⟨i, hi, hpush.trans (exec_of_telegram (classify_ok hi).1 _).symm, _, hpush, ?_, ?_, ?_, ?_⟩
  · exact dispatchTelegram_win ..
  · exact dispatchTelegram_rsp ..
  · exact dispatchTelegram_cfg ..
  · exact dispatchTelegram_inbox ..

/-- Settles O32: a fill is silent, a drop is one event, an accept is FrameAccepted and what DISPATCH
emits. -/
theorem pushbEventLists : Obligations.PushbEventLists := by
  unfold Obligations.PushbEventLists
  intro b s t h
  rcases execPushb_next_cases h with ⟨-, rfl⟩ | ⟨w0, w1, w2, w3, w4, -, -, rfl⟩ |
    ⟨tg, -, -, -, rfl⟩
  · exact ⟨[], (List.append_nil _).symm, .inl rfl⟩
  · exact ⟨_, rfl, .inr (.inl ⟨_, _, _, rfl⟩)⟩
  · refine ⟨.frameAccepted tg :: dispatchEvents s.cfg tg, ?_, .inr (.inr ⟨tg, ?_⟩)⟩
    · rw [dispatchTelegram_evs, acceptFrame_evs, List.append_assoc]
      rfl
    · by_cases hd : tg.domain = 1
      · by_cases hr : LocalReceiver s.cfg tg.receiver
        · exact .inr (.inl ⟨_, _, _, congrArg _ (dispatchEvents_local hd hr)⟩)
        · exact .inl (congrArg _ (dispatchEvents_not_local hd hr))
      · exact .inr (.inr ⟨_, _, _, congrArg _ (dispatchEvents_raw _ hd)⟩)

/-- What SYNC.STEP answers on a window at rest, by its length and the checksum (41_framesync
R142). -/
theorem syncStep_rest_cases {win : List Byte} (b : Byte) (h : win.length ≤ 5) :
    (win.length < 5 ∧ syncStep win b = some (win ++ [b], none)) ∨
    (∃ tg, win ++ [b] = pack tg ∧ tg.checksum = telegramSum tg ∧
      syncStep win b = some ([], some (.frameAccepted tg))) ∨
    (∃ d e w, win ++ [b] = d :: w ∧ w.length = 5 ∧ validate6 (win ++ [b]) = none ∧
      syncStep win b = some (w, some (.byteDropped d e b))) := by
  rcases window_cases h with hl | ⟨w0, w1, w2, w3, w4, rfl⟩
  · exact .inl ⟨hl, syncStep_short win b hl⟩
  · rcases examine_cases w0 w1 w2 w3 w4 b with ⟨hb, he⟩ | ⟨hb, he⟩
    · refine .inr (.inl ⟨⟨w0, w1, w2, w3, w4, b⟩, rfl, hb, ?_⟩)
      rw [syncStep_five, he]
    · refine .inr (.inr ⟨w0, checksum5 w0 w1 w2 w3 w4, [w1, w2, w3, w4, b], rfl, rfl, ?_, ?_⟩)
      · exact (validate6_six ..).trans (if_neg hb)
      · rw [syncStep_five, he]

/-- Settles O33, by the three outcomes of SYNC.STEP, and as a run without a candidate. -/
theorem syncEventByWindowLength : Obligations.SyncEventByWindowLength := by
  unfold Obligations.SyncEventByWindowLength
  constructor
  · intro win b h
    rcases syncStep_rest_cases b h with ⟨hl, he⟩ | ⟨tg, hpack, hk, he⟩ | ⟨d, e, w, hwin, hw, hv, he⟩
    · exact ⟨_, _, he, ⟨fun _ => hl, fun _ => rfl⟩, fun _ => List.length_append,
        fun h5 => absurd hl (by omega)⟩
    · have hlen : win.length = 5 := by simpa [pack] using congrArg List.length hpack
      have hv : validate6 (pack tg) = some tg := (validate6_six ..).trans (if_pos hk)
      refine ⟨_, _, he, ⟨nofun, fun hl => absurd hl (by omega)⟩, fun hl => absurd hl (by omega),
        fun _ => ⟨fun _ => ⟨rfl, tg, rfl, hpack.symm⟩, fun hn => ?_⟩⟩
      rw [hpack, hv] at hn
      cases hn
    · have hlen : win.length = 5 := by simpa [hw] using congrArg List.length hwin
      exact ⟨_, _, he, ⟨nofun, fun hl => absurd hl (by omega)⟩, fun hl => absurd hl (by omega),
        fun _ => ⟨fun hn => absurd hv hn, fun _ => ⟨hw, d, e, b, rfl, hwin⟩⟩⟩
  · intro bs s hwin hlen
    have hsilent : NoFrame (s.win ++ bs) := fun i hi => by
      rw [hwin, List.nil_append] at hi
      omega
    obtain ⟨t, ds, ht, hd⟩ := pushBatch_dropRun (by simp [hwin]) hsilent
    have hds : ds = [] := List.eq_nil_of_length_eq_zero (by
      rw [hd.length_drops, hwin, List.length_nil]
      omega)
    subst hds
    refine ⟨t, ht, ?_, hd.evs.trans (List.append_nil _)⟩
    simpa [hwin] using hd.bytes.symm

/-! ## The obligations on batches and constant streams -/

/-- Settles O37, by induction on the first batch, and on the batch whose events are moved. -/
theorem batchIsFoldOfPushes : Obligations.BatchIsFoldOfPushes := by
  unfold Obligations.BatchIsFoldOfPushes
  refine ⟨fun s => rfl, ?_, fun as bs s t => pushBatch_append bs, ?_⟩
  · intro b s
    rw [exec_pushb, pushBatch]
    cases execPushb b s with
    | next t => rfl
    | fault r => rfl
    | refused r => rfl
  · intro bs es s t h
    obtain ⟨fs, hfs⟩ := pushBatch_withEvents h
    have hevs := congrArg State.evs (Host.Outcome.next.inj (h.symm.trans (hfs [])))
    rw [hevs]
    exact hfs es

/-- Settles O39: six equal bytes are a frame for four values, and no stream of another value holds a
frame. -/
theorem constantStreams : Obligations.ConstantStreams := by
  unfold Obligations.ConstantStreams
  constructor
  · intro x s hx hwin
    exact ⟨pushBatch_constantFrame hwin hx, pushBatch_constantFrames hwin hx⟩
  · intro x s h00 h40 h80 hC0 hwin
    exact pushBatch_constantDrops hwin
      (not_or.mpr ⟨h00, not_or.mpr ⟨h40, not_or.mpr ⟨h80, hC0⟩⟩⟩)

end Sys2Proof.Machine
end

section
/-! The DISP family (42_dispatch): the three telegram classes, the totals of the traffic table,
RDVAR and RDTRAF. -/

namespace Sys2Proof.Machine

/-! ## Sums over a table -/

/-- A write changes a sum over the table by the value written less the value read before. -/
theorem sum_tableSet {α : Type} (f : α → Nat) {t : List (Byte × α)} (h : tableWf t) (i : Byte)
    (x : α) : ((tableSet t i x).map (fun e => f e.2)).sum + ((tableGet t i).map f).getD 0 =
      (t.map (fun e => f e.2)).sum + f x := by
  induction t with
  | nil => exact Nat.add_comm (f x) 0
  | cons e t ih =>
    obtain ⟨k, v⟩ := e
    simp only [tableWf, List.map_cons, List.pairwise_cons] at h
    obtain ⟨hk, ht⟩ := h
    by_cases hik : i = k
    · subst hik
      simp only [tableSet, tableGet, if_true, List.map_cons, List.sum_cons, Option.map_some,
        Option.getD_some]
      omega
    · have hget : tableGet ((k, v) :: t) i = tableGet t i := by rw [tableGet, if_neg hik]
      rw [hget, tableSet, if_neg hik]
      by_cases hlt : i < k
      · have hnone : tableGet t i = none :=
          tableGet_none_of_lt fun k' hk' => BitVec.lt_trans hlt (hk k' hk')
        rw [if_pos hlt, hnone, List.map_cons, List.sum_cons]
        exact Nat.add_comm (f x) _
      · have ih' := ih ht
        rw [if_neg hlt]
        simp only [List.map_cons, List.sum_cons] at ih' ⊢
        omega

section totals
variable {c : Config} {t : List (Byte × TrafEntry)} (hc : c.cntW = none) (h : tableWf t) (a : Byte)

include h in
theorem sumTx_tableSet (e : TrafEntry) :
    sumTx (tableSet t a e) + (trafCounts t a).tx = sumTx t + e.tx := by
  have hget : (trafCounts t a).tx = ((tableGet t a).map TrafEntry.tx).getD 0 := by
    unfold trafCounts
    cases tableGet t a <;> rfl
  rw [hget]
  exact sum_tableSet TrafEntry.tx h a e

include h in
theorem sumRx_tableSet (e : TrafEntry) :
    sumRx (tableSet t a e) + (trafCounts t a).rx = sumRx t + e.rx := by
  have hget : (trafCounts t a).rx = ((tableGet t a).map TrafEntry.rx).getD 0 := by
    unfold trafCounts
    cases tableGet t a <;> rfl
  rw [hget]
  exact sum_tableSet TrafEntry.rx h a e

include hc h

/-- An unbounded `bump_tx` adds 1 to the sum of all `tx` and nothing to the sum of all `rx`. -/
theorem sums_bumpTx : sumTx (tableSet t a (bumpTx c (tableGet t a))) = sumTx t + 1 ∧
    sumRx (tableSet t a (bumpTx c (tableGet t a))) = sumRx t := by
  have htx := sumTx_tableSet h a (bumpTx c (tableGet t a))
  have hrx := sumRx_tableSet h a (bumpTx c (tableGet t a))
  rw [bumpTx_eq, incCounter_unbounded hc] at *
  simp only [trafCounts] at htx hrx
  omega

/-- An unbounded `bump_rx` adds 1 to the sum of all `rx` and nothing to the sum of all `tx`. -/
theorem sums_bumpRx : sumTx (tableSet t a (bumpRx c (tableGet t a))) = sumTx t ∧
    sumRx (tableSet t a (bumpRx c (tableGet t a))) = sumRx t + 1 := by
  have htx := sumTx_tableSet h a (bumpRx c (tableGet t a))
  have hrx := sumRx_tableSet h a (bumpRx c (tableGet t a))
  rw [bumpRx_eq, incCounter_unbounded hc] at *
  simp only [trafCounts] at htx hrx
  omega

end totals

/-- Counting one telegram raises both totals by 1, with unbounded counters (42_dispatch R173). -/
theorem countTraffic_totals (tg : Telegram) {s : State} (hc : s.cfg.cntW = none)
    (h : tableWf s.traf) : sumTx (countTraffic tg s).traf = sumTx s.traf + 1 ∧
      sumRx (countTraffic tg s).traf = sumRx s.traf + 1 := by
  obtain ⟨htx, hrx⟩ := sums_bumpTx hc h tg.sender
  obtain ⟨htx', hrx'⟩ := sums_bumpRx hc
    (tableSet_wf _ tg.sender (bumpTx s.cfg (tableGet s.traf tg.sender)) h) tg.receiver
  exact ⟨htx'.trans htx, hrx'.trans (congrArg (· + 1) hrx)⟩

theorem acceptCount_dispatchTelegram (tg : Telegram) (s : State) :
    acceptCount (dispatchTelegram tg s).evs = acceptCount s.evs := by
  rw [dispatchTelegram_evs, acceptCount_append,
    acceptCount_of_syncEvents_nil (syncEvents_dispatchEvents ..), Nat.add_zero]

/-- From `s` to `t` both totals of the traffic table rose by the number of accepts (42_dispatch
R173), and what this rests on was kept. -/
structure TotalsCounted (s t : State) : Prop where
  cfg : t.cfg = s.cfg
  wf : tableWf t.traf
  tx : sumTx t.traf + acceptCount s.evs = sumTx s.traf + acceptCount t.evs
  rx : sumRx t.traf + acceptCount s.evs = sumRx s.traf + acceptCount t.evs

theorem TotalsCounted.trans {s t u : State} (h : TotalsCounted s t) (h' : TotalsCounted t u) :
    TotalsCounted s u where
  cfg := h'.cfg.trans h.cfg
  wf := h'.wf
  tx := by have := h.tx; have := h'.tx; omega
  rx := by have := h.rx; have := h'.rx; omega

/-- A push counts a telegram exactly when it accepts one. -/
theorem execPushb_totalsCounted {b : Byte} {s t : State} (hc : s.cfg.cntW = none)
    (hwf : tableWf s.traf) (h : execPushb b s = .next t) : TotalsCounted s t := by
  rcases execPushb_next_cases h with ⟨-, rfl⟩ | ⟨w0, w1, w2, w3, w4, -, -, rfl⟩ |
    ⟨tg, -, -, -, rfl⟩
  · exact ⟨rfl, hwf, rfl, rfl⟩
  · have hevs : acceptCount (s.evs ++ [.byteDropped w0 (checksum5 w0 w1 w2 w3 w4) b]) =
        acceptCount s.evs := acceptCount_append ..
    refine ⟨rfl, hwf, ?_, ?_⟩ <;> simp [hevs]
  · have hevs : acceptCount (dispatchTelegram tg (acceptFrame tg s)).evs =
        acceptCount s.evs + 1 := by
      rw [acceptCount_dispatchTelegram, acceptFrame_evs, acceptCount_append]
      rfl
    obtain ⟨htx, hrx⟩ := countTraffic_totals tg (s := acceptFrame tg s) hc hwf
    rw [← dispatchTelegram_traf, acceptFrame_traf] at htx hrx
    refine ⟨dispatchTelegram_cfg .., ?_, ?_, ?_⟩
    · rw [dispatchTelegram_traf]
      exact countTraffic_wf _ _ hwf
    · rw [htx, hevs, Nat.add_right_comm, Nat.add_assoc]
    · rw [hrx, hevs, Nat.add_right_comm, Nat.add_assoc]

theorem pushBatch_totalsCounted {bs : List Byte} {s t : State} (hc : s.cfg.cntW = none)
    (hwf : tableWf s.traf) (h : pushBatch bs s = .next t) : TotalsCounted s t := by
  induction bs generalizing s with
  | nil =>
    cases h
    exact ⟨rfl, hwf, rfl, rfl⟩
  | cons b bs ih =>
    obtain ⟨u, hu, ht⟩ := pushBatch_cons_next h
    have hcounted := execPushb_totalsCounted hc hwf hu
    exact hcounted.trans (ih (by rw [hcounted.cfg, hc]) hcounted.wf ht)

/-! ## The obligations -/

/-- Settles O46, by induction on the stream: only the accept counts, and it counts one `tx` and one
`rx`. -/
theorem trafficTotalsCountAccepts : Obligations.TrafficTotalsCountAccepts := by
  unfold Obligations.TrafficTotalsCountAccepts
  intro bs s t hc hwf h
  obtain ⟨-, -, htx, hrx⟩ := pushBatch_totalsCounted hc hwf h
  exact ⟨htx, hrx⟩

section classes
variable {tg : Telegram} {s : State}

theorem dispatchTelegram_counted (tg : Telegram) (s : State) :
    TrafficCounted s.cfg tg.sender tg.receiver s.traf (dispatchTelegram tg s).traf := by
  rw [dispatchTelegram_traf]
  exact countTraffic_counted tg s

/-- A telegram of another domain writes the traffic table and RawTraffic only (42_dispatch R166). -/
theorem dispatchTelegram_raw (hd : tg.domain ≠ 1) : dispatchTelegram tg s =
    { s with traf := (dispatchTelegram tg s).traf,
             evs := s.evs ++ [.rawTraffic tg.sender tg.receiver (describe s.cfg tg)] } := by
  rcases dispatchTelegram_cases tg s with ⟨-, h⟩ | ⟨hd', -, -⟩ | ⟨hd', -, -⟩
  · rw [h]
  · exact absurd hd' hd
  · exact absurd hd' hd

/-- A local application telegram updates one variable (42_dispatch R165). -/
theorem dispatchTelegram_local (hd : tg.domain = 1) (hr : LocalReceiver s.cfg tg.receiver) :
    dispatchTelegram tg s =
      { s with var := (dispatchTelegram tg s).var, traf := (dispatchTelegram tg s).traf,
               evs := s.evs ++ [.variableUpdated tg.command tg.value
                 (decodeValue s.cfg tg.command tg.value)] } := by
  rcases dispatchTelegram_cases tg s with ⟨hd', -⟩ | ⟨-, -, h⟩ | ⟨-, hr', -⟩
  · exact absurd hd hd'
  · rw [h]
  · exact absurd hr hr'

/-- An application telegram to another receiver is counted only (42_dispatch R169). -/
theorem dispatchTelegram_not_local (hd : tg.domain = 1) (hr : ¬ LocalReceiver s.cfg tg.receiver) :
    dispatchTelegram tg s = { s with traf := (dispatchTelegram tg s).traf } := by
  rcases dispatchTelegram_cases tg s with ⟨hd', -⟩ | ⟨-, hr', -⟩ | ⟨-, -, h⟩
  · exact absurd hd hd'
  · exact absurd hr' hr
  · rw [h]

/-- Only the command's entry of the variable table can change (42_dispatch R165). -/
theorem dispatchTelegram_var_other (tg : Telegram) (s : State) {c : Byte} (hc : c ≠ tg.command) :
    tableGet (dispatchTelegram tg s).var c = tableGet s.var c := by
  rcases dispatchTelegram_cases tg s with ⟨-, h⟩ | ⟨-, -, h⟩ | ⟨-, -, h⟩ <;> rw [h]
  exact tableGet_tableSet_other _ _ hc

theorem dispatchTelegram_var_command (hd : tg.domain = 1)
    (hr : LocalReceiver s.cfg tg.receiver) : tableGet (dispatchTelegram tg s).var tg.command =
      some ⟨tg.value, incCounter s.cfg (varCount s.var tg.command)⟩ := by
  rw [dispatchTelegram_var_local hd hr, tableGet_tableSet_same]

end classes

/-- Settles O40: DISPATCH of another domain, with the description of the command. -/
theorem tgRawReportsTraffic : Obligations.TgRawReportsTraffic := by
  unfold Obligations.TgRawReportsTraffic
  intro d a r c v k s hd
  exact ⟨_, rfl, dispatchTelegram_counted ⟨d, a, r, c, v, k⟩ s, dispatchTelegram_raw hd⟩

/-- Settles O41: DISPATCH of domain 1 with the command as the variable's code. -/
theorem tgReportUpdatesLocalVariable : Obligations.TgReportUpdatesLocalVariable := by
  unfold Obligations.TgReportUpdatesLocalVariable
  intro a r c v k s
  let tg : Telegram := ⟨domainApp, a, r, c, v, k⟩
  refine ⟨dispatchTelegram tg s, rfl, dispatchTelegram_counted tg s, fun hr => ⟨?_, ?_, ?_⟩, ?_⟩
  · exact dispatchTelegram_var_command rfl hr
  · exact fun c' => dispatchTelegram_var_other tg s
  · exact dispatchTelegram_local rfl hr
  · exact dispatchTelegram_not_local (tg := tg) rfl

/-- Settles O42: DISPATCH of domain 1 with the poll's 0x00 as the variable's code. -/
theorem tgPollStoresPolledCode : Obligations.TgPollStoresPolledCode := by
  unfold Obligations.TgPollStoresPolledCode
  intro a r v k s
  let tg : Telegram := ⟨domainApp, a, r, pollMarker, v, k⟩
  refine ⟨dispatchTelegram tg s, rfl, dispatchTelegram_counted tg s, ?_, fun hr => ⟨?_, ?_, ?_⟩, ?_⟩
  · exact dispatchTelegram_var_other tg s
  · exact dispatchTelegram_var_command rfl hr
  · exact fun c' => dispatchTelegram_var_other tg s
  · exact dispatchTelegram_local rfl hr
  · exact dispatchTelegram_not_local (tg := tg) rfl

theorem exec_rdvar (c : Byte) (s : State) :
    exec (.rdvar c) s = .next (respond (variablePayload (tableGet s.var c)) s) := rfl

theorem exec_rdtraf (a : Byte) (s : State) :
    exec (.rdtraf a) s = .next (respond (trafficPayload (tableGet s.traf a)) s) := rfl

/-- Settles O44: the payload of the entry read, and the invariant on what is listed. -/
theorem rdvarAnswersEntry : Obligations.RdvarAnswersEntry := by
  unfold Obligations.RdvarAnswersEntry
  refine ⟨decode_requestWord_rdvar, ?_, ?_, ?_⟩
  · intro c s h
    rw [exec_rdvar, h, variablePayload, respond]
  · intro c s e h
    rw [exec_rdvar, h, variablePayload, respond]
  · intro c raw n s t hinv h hrsp
    cases (exec_rdvar c s).symm.trans h
    cases he : tableGet s.var c with
    | none =>
      rw [he] at hrsp
      cases hrsp
    | some e =>
      rw [he] at hrsp
      cases hrsp
      exact (hinv.varCount c e he).1

/-- Settles O45: the payload of the entry read, and the invariant on what is listed. -/
theorem rdtrafAnswersEntry : Obligations.RdtrafAnswersEntry := by
  unfold Obligations.RdtrafAnswersEntry
  refine ⟨decode_requestWord_rdtraf, ?_, ?_, ?_⟩
  · intro a s h
    rw [exec_rdtraf, h, trafficPayload, respond]
  · intro a s e h
    rw [exec_rdtraf, h, trafficPayload, respond]
  · intro a m n s t hinv h hrsp
    cases (exec_rdtraf a s).symm.trans h
    cases he : tableGet s.traf a with
    | none =>
      rw [he] at hrsp
      cases hrsp
    | some e =>
      rw [he] at hrsp
      cases hrsp
      exact (hinv.trafCount a e he).1

end Sys2Proof.Machine
end

section
/-! The remaining CODEC, BLD and REG statements (40_codec, 43_registry, 44_encoder): which frames
are built, what the checksum detects, the registry, the temperature table and the fan table. -/

namespace Sys2Proof.Machine

/-! ## The operations -/

theorem exec_bldpoll (l c : Byte) (s : State) : exec (.bldpoll l c) s =
    .next (respond (.frame (pack (encodeTelegram l addrMaster pollMarker c))) s) := rfl

theorem exec_reglook (c : Byte) (s : State) : exec (.reglook c) s =
    .next (respond (.registered (knownCode s.cfg c) (registryEntry s.cfg c).kind
      (registryEntry s.cfg c).name) s) := rfl

theorem exec_encfan_some {n raw : Byte} (h : fanByte n = some raw) (s : State) :
    exec (.encfan n) s = .next (respond (.fanRaw raw) s) := by
  change execEncfan n s = _
  rw [execEncfan, h]

theorem exec_encfan_none {n : Byte} (h : fanByte n = none) (s : State) :
    exec (.encfan n) s = .next (raiseContractFault .fanLevelRange s) := by
  change execEncfan n s = _
  rw [execEncfan, h]

/-! ## What the checksum detects -/

/-- Validity of a list of bytes: six, the last the wrapping sum of the five before it. -/
theorem validate6_ne_none_iff (f : List Byte) :
    validate6 f ≠ none ↔ f.length = 6 ∧ f.getD 5 0 = (f.take 5).sum := by
  constructor
  · intro h
    obtain ⟨t, ht⟩ := Option.ne_none_iff_exists'.mp h
    obtain ⟨rfl, hk⟩ := validate6_some ht
    exact ⟨rfl, hk.trans (checksum5_eq_sum ..)⟩
  · rintro ⟨hlen, hsum⟩
    match f, hlen with
    | [b0, b1, b2, b3, b4, b5], _ =>
      exact (validate6_six_ne_none_iff ..).mpr (hsum.trans (checksum5_eq_sum ..).symm)

/-- A changed byte among the first five changes their sum by the difference. -/
theorem sum_take_set {f : List Byte} (hlen : f.length = 6) {i : Nat} (hi : i < 5) (x : Byte) :
    ((f.set i x).take 5).sum = (f.take 5).sum - f.getD i 0 + x := by
  have hi' : i < (f.take 5).length := by rw [List.length_take, hlen]; omega
  rw [List.take_set, List.sum_set', dif_pos hi', List.getElem_take,
    List.getD_eq_getElem _ _ (by omega)]
  ring

/-- A changed checksum byte changes the checksum byte alone. -/
theorem sum_take_set_last (f : List Byte) (x : Byte) : (f.set 5 x).take 5 = f.take 5 :=
  List.take_set_of_le le_rfl

/-- A byte of a list in which another was changed. -/
theorem getD_set_ne {f : List Byte} {i j : Nat} (h : i ≠ j) (x : Byte) :
    (f.set i x).getD j 0 = f.getD j 0 := by
  rw [List.getD_eq_getElem?_getD, List.getElem?_set_ne h, List.getD_eq_getElem?_getD]

theorem getD_set_self {f : List Byte} {i : Nat} (h : i < f.length) (x : Byte) :
    (f.set i x).getD i 0 = x := by
  rw [List.getD_eq_getElem?_getD, List.getElem?_set_self h, Option.getD_some]

section detect
variable {f : List Byte} (hv : validate6 f ≠ none)
include hv

/-- One changed byte of the first five must be the old one. -/
theorem validate6_set_iff {i : Nat} (hi : i < 5) (x : Byte) :
    validate6 (f.set i x) ≠ none ↔ x = f.getD i 0 := by
  obtain ⟨hlen, hsum⟩ := (validate6_ne_none_iff f).mp hv
  rw [validate6_ne_none_iff, List.length_set, getD_set_ne hi.ne, sum_take_set hlen hi, hsum]
  constructor
  · rintro ⟨-, h⟩
    linear_combination -h
  · intro h
    exact ⟨hlen, by linear_combination -h⟩

/-- A changed checksum byte must be the old one. -/
theorem validate6_set_last_iff (x : Byte) : validate6 (f.set 5 x) ≠ none ↔ x = f.getD 5 0 := by
  obtain ⟨hlen, hsum⟩ := (validate6_ne_none_iff f).mp hv
  rw [validate6_ne_none_iff, List.length_set, getD_set_self (by omega), sum_take_set_last, hsum]
  exact and_iff_right hlen

/-- Two changed bytes of the first five must keep their sum. -/
theorem validate6_set_set_iff {i j : Nat} (hij : i < j) (hj : j < 5) (x y : Byte) :
    validate6 ((f.set i x).set j y) ≠ none ↔ x + y = f.getD i 0 + f.getD j 0 := by
  obtain ⟨hlen, hsum⟩ := (validate6_ne_none_iff f).mp hv
  have hlen' : (f.set i x).length = 6 := List.length_set.trans hlen
  rw [validate6_ne_none_iff, List.length_set, getD_set_ne hj.ne, getD_set_ne (hij.trans hj).ne,
    sum_take_set hlen' hj, sum_take_set hlen (hij.trans hj), getD_set_ne hij.ne, hsum]
  constructor
  · rintro ⟨-, h⟩
    linear_combination -h
  · intro h
    exact ⟨hlen', by linear_combination -h⟩

/-- A changed byte of the first five and a changed checksum must change by the same. -/
theorem validate6_set_set_last_iff {i : Nat} (hi : i < 5) (x y : Byte) :
    validate6 ((f.set i x).set 5 y) ≠ none ↔ x + f.getD 5 0 = y + f.getD i 0 := by
  obtain ⟨hlen, hsum⟩ := (validate6_ne_none_iff f).mp hv
  have hlen' : (f.set i x).length = 6 := List.length_set.trans hlen
  rw [validate6_ne_none_iff, List.length_set, getD_set_self (by omega), sum_take_set_last,
    sum_take_set hlen hi, hsum]
  constructor
  · rintro ⟨-, h⟩
    linear_combination -h
  · intro h
    exact ⟨hlen', by linear_combination -h⟩

end detect

/-- Settles O11: validity is a linear equation in the six bytes, and of six equal bytes one that
four values solve. -/
theorem checksumDetectsUncancelledChanges : Obligations.ChecksumDetectsUncancelledChanges := by
  unfold Obligations.ChecksumDetectsUncancelledChanges
  refine ⟨fun f hv => ⟨?_, ?_, ?_⟩, validate6_replicate_ne_none_iff⟩
  · intro i x hi hx
    by_contra hn
    rcases Nat.lt_or_eq_of_le (Nat.le_of_lt_succ hi) with hi | rfl
    · exact hx ((validate6_set_iff hv hi x).mp hn)
    · exact hx ((validate6_set_last_iff hv x).mp hn)
  · exact fun i j x y hij hj => validate6_set_set_iff hv hij hj x y
  · exact fun i x y hi => validate6_set_set_last_iff hv hi x y

/-! ## Built frames -/

theorem encodeTelegram_checksum (a b c v : Byte) :
    (encodeTelegram a b c v).checksum = telegramSum (encodeTelegram a b c v) := rfl

theorem validate6_encodeTelegram (a b c v : Byte) :
    validate6 (pack (encodeTelegram a b c v)) ≠ none :=
  (validate6_six_ne_none_iff ..).mpr (encodeTelegram_checksum a b c v)

theorem validatePayload_ne_frame (b0 b1 b2 b3 b4 b5 : Byte) (f : List Byte) :
    validatePayload b0 b1 b2 b3 b4 b5 ≠ .frame f := by
  rw [validatePayload]
  split
  · nofun
  · nofun

theorem variablePayload_ne_frame (o : Option VarEntry) (f : List Byte) :
    variablePayload o ≠ .frame f := by
  cases o with
  | none => nofun
  | some e => nofun

theorem trafficPayload_ne_frame (o : Option TrafEntry) (f : List Byte) :
    trafficPayload o ≠ .frame f := by
  cases o with
  | none => nofun
  | some e => nofun

/-- Every frame that is answered is one ENCODE builds (40_codec R122, 44_encoder R231). -/
theorem frame_answered {i : Instr} {s t : State} {f : List Byte} (hs : s.rsp = none)
    (h : exec i s = .next t) (hf : t.rsp = some (.ok (.frame f))) :
    ∃ a b c v, f = pack (encodeTelegram a b c v) := by
  rcases instr_cases i with hp | ⟨b, rfl⟩ | ⟨tg, htg⟩
  · cases i with
    | encode a b c v =>
      cases h
      cases hf
      exact ⟨a, b, c, v, rfl⟩
    | bldset l c v =>
      cases h
      cases hf
      exact ⟨l, addrMaster, c, v, rfl⟩
    | bldpoll l c =>
      cases h
      cases hf
      exact ⟨l, addrMaster, pollMarker, c, rfl⟩
    | validate b0 b1 b2 b3 b4 b5 =>
      cases h
      exact absurd (Response.ok.inj (Option.some.inj hf)) (validatePayload_ne_frame _ _ _ _ _ _ f)
    | encfan n =>
      cases hn : fanByte n with
      | some raw =>
        cases (exec_encfan_some hn s).symm.trans h
        cases hf
      | none =>
        cases (exec_encfan_none hn s).symm.trans h
        cases hf
    | rdvar c =>
      cases h
      exact absurd (Response.ok.inj (Option.some.inj hf)) (variablePayload_ne_frame _ f)
    | rdtraf a =>
      cases h
      exact absurd (Response.ok.inj (Option.some.inj hf)) (trafficPayload_ne_frame _ f)
    | pushb b => cases hp
    | tgPoll a b v k => cases hp
    | tgReport a b c v k => cases hp
    | tgRaw d a b c v k => cases hp
    | _ =>
      cases h
      cases hf
  · rw [execPushb_rsp h] at hf
    cases hf
  · cases (exec_of_telegram htg s).symm.trans h
    rw [dispatchTelegram_rsp, hs] at hf
    cases hf

/-- A builder answers the frame of a telegram from its operand to the master (44_encoder R231). -/
theorem exec_builder {i : Instr} {l : Byte} (h : ∃ c v, i = .bldset l c v ∨ i = .bldpoll l c)
    (s : State) : ∃ c v, exec i s =
      .next (respond (.frame (pack (encodeTelegram l addrMaster c v))) s) := by
  obtain ⟨c, v, rfl | rfl⟩ := h
  · exact ⟨c, v, exec_bldset_eq_exec_encode l c v s⟩
  · exact ⟨pollMarker, c, exec_bldpoll l c s⟩

/-- Settles O13: ENCODE's operands stand in its frame, and no other operation builds a frame of its
own. -/
theorem onlyDomainOneIsBuilt : Obligations.OnlyDomainOneIsBuilt := by
  unfold Obligations.OnlyDomainOneIsBuilt
  constructor
  · intro a b c v a' b' c' v' s t t' f h h' hf hf'
    cases h
    cases h'
    cases hf
    cases hf'
    exact ⟨rfl, rfl, rfl, rfl, validate6_encodeTelegram a b c v⟩
  · intro i s t f hs h hf
    obtain ⟨a, b, c, v, rfl⟩ := frame_answered hs h hf
    exact ⟨rfl, rfl, validate6_encodeTelegram a b c v⟩

/-- Settles O19: a built frame carries its own checksum. -/
theorem builtFramesValidate : Obligations.BuiltFramesValidate := by
  unfold Obligations.BuiltFramesValidate
  rintro i s t b0 b1 b2 b3 b4 b5 ⟨l, hi⟩ h hf
  obtain ⟨c, v, he⟩ := exec_builder hi s
  cases he.symm.trans h
  cases hf
  refine ⟨rfl, rfl, ?_⟩
  rw [exec_validate, validatePayload_of_checksum (encodeTelegram_checksum l addrMaster c v),
    respond]

/-- Settles O18: the echo is one accepted frame, whose receiver 0x11 is local only if a parameter
makes it so. -/
theorem echoedBuiltFrameIsTrafficOnly : Obligations.EchoedBuiltFrameIsTrafficOnly := by
  unfold Obligations.EchoedBuiltFrameIsTrafficOnly
  intro i l s t f hi hwin h hf
  obtain ⟨c, v, he⟩ := exec_builder hi s
  cases he.symm.trans h
  cases hf
  let tg : Telegram := encodeTelegram l addrMaster c v
  refine ⟨_, tg, pushBatch_frame (tg := tg) hwin rfl, unpack_pack tg, ?_, ?_, ?_⟩
  · exact dispatchTelegram_win ..
  · exact dispatchTelegram_counted tg _
  · intro hlocal hpanel
    have hr : ¬ LocalReceiver s.cfg addrMaster := by
      rintro (h | h | h | h)
      · exact absurd h (by decide)
      · exact hpanel h.symm
      · exact hlocal h.symm
      · exact absurd h (by decide)
    have hquiet := dispatchTelegram_not_local (tg := tg)
      (s := acceptFrame tg (respond (.frame (pack tg)) s)) rfl hr
    exact ⟨(congrArg State.var hquiet).trans rfl, (congrArg State.evs hquiet).trans rfl⟩

/-- Settles O14: the payload compares the recomputed sum with the sixth byte. -/
theorem validateComparesChecksum : Obligations.ValidateComparesChecksum := by
  unfold Obligations.ValidateComparesChecksum
  constructor
  · exact decode_requestWord_validate
  · intro b0 b1 b2 b3 b4 b5 s
    exact ⟨checksum5 b0 b1 b2 b3 b4, checksum5_toNat .., exec_validate ..⟩

/-- Settles O17: BLDPOLL is the BLDSET of code 0x00. -/
theorem bldpollAnswersFrame : Obligations.BldpollAnswersFrame := by
  unfold Obligations.BldpollAnswersFrame
  constructor
  · exact decode_requestWord_bldpoll
  · intro l c s
    have hsum := checksum5_toNat domainApp l addrMaster pollMarker c
    exact ⟨checksum5 domainApp l addrMaster pollMarker c, hsum, exec_bldpoll l c s, rfl⟩

/-! ## The registry -/

/-- What a code reads as: its entry, or unknown (43_registry R191). -/
theorem registryEntry_cases (cfg : Config) (c : Byte) :
    (∃ e, tableGet cfg.registry c = some e ∧ registryEntry cfg c = e) ∨
    (tableGet cfg.registry c = none ∧ registryEntry cfg c = RegEntry.unknown) := by
  unfold registryEntry
  cases tableGet cfg.registry c with
  | some e => exact .inl ⟨e, rfl, rfl⟩
  | none => exact .inr ⟨rfl, rfl⟩

/-- Known means that the kind is not Opaque (43_registry R192). -/
theorem knownCode_eq_decide (cfg : Config) (c : Byte) :
    knownCode cfg c = decide ((registryEntry cfg c).kind ≠ .opaqueRaw) := by
  rw [knownCode, bne, decide_not]
  rfl

/-- In a legal registry Opaque and "unknown" go together (43_registry R191). -/
theorem kind_opaque_iff_name_unknown {cfg : Config} (h : cfg.RegistryLegal) (c : Byte) :
    (registryEntry cfg c).kind = .opaqueRaw ↔ (registryEntry cfg c).name = "unknown" := by
  obtain ⟨-, -, hopaque, -⟩ := h
  rcases registryEntry_cases cfg c with ⟨e, hget, he⟩ | ⟨-, he⟩ <;> rw [he]
  · exact hopaque (c, e) (mem_of_tableGet hget)
  · exact iff_of_true rfl rfl

/-- Settles O20: the entry read, and what a legal registry holds. -/
theorem reglookAnswersEntry : Obligations.ReglookAnswersEntry := by
  unfold Obligations.ReglookAnswersEntry
  refine ⟨decode_requestWord_reglook, ?_, ?_, fun c cfg h => kind_opaque_iff_name_unknown h c, ?_⟩
  · intro c s
    rw [exec_reglook, knownCode_eq_decide, respond]
  · intro c cfg h
    rw [registryEntry, h, Option.getD_none, RegEntry.unknown]
  · rintro cfg ⟨hfan, hselect, -⟩
    exact ⟨congrArg (Option.getD · RegEntry.unknown) hfan,
      congrArg (Option.getD · RegEntry.unknown) hselect⟩

/-! ## The temperature table -/

/-- A legal table does not fall (43_registry R196). -/
theorem temp_mono {cfg : Config} (h : cfg.TempLegal) {i j : Nat} (hij : i ≤ j) (hj : j < 256) :
    cfg.temp[i] ≤ cfg.temp[j] := by
  obtain ⟨-, -, hstep⟩ := h
  induction j, hij using Nat.le_induction with
  | base => exact le_rfl
  | succ j hij ih => exact (ih (by omega)).trans (hstep j (by omega))

theorem tempOf_mono {cfg : Config} (h : cfg.TempLegal) {r r' : Byte} (hr : r.toNat ≤ r'.toNat) :
    tempOf cfg r ≤ tempOf cfg r' :=
  temp_mono h hr r'.isLt

theorem tempOf_low {cfg : Config} (h : cfg.TempLegal) : tempOf cfg 0x00 = -74 := by
  obtain ⟨hlow, -, -⟩ := h
  exact hlow

theorem tempOf_high {cfg : Config} (h : cfg.TempLegal) : tempOf cfg 0xFF = 100 := by
  obtain ⟨-, hhigh, -⟩ := h
  exact hhigh

/-- A legal table lies between its printed ends (43_registry R196). -/
theorem tempOf_bounds {cfg : Config} (h : cfg.TempLegal) (r : Byte) :
    -74 ≤ tempOf cfg r ∧ tempOf cfg r ≤ 100 := by
  rw [← tempOf_low h, ← tempOf_high h]
  exact ⟨tempOf_mono h (Nat.zero_le _), tempOf_mono h (Nat.le_of_lt_succ r.isLt)⟩

/-- A temperature in the table's range fits its port image (43_registry R197). -/
theorem tempImage_toInt {d : Int} (hlow : -74 ≤ d) (hhigh : d ≤ 100) : (tempImage d).toInt = d :=
  BitVec.toInt_ofInt_eq_self (by decide) (by omega) (by omega)

/-- The temperature DECTEMP answers is the table's. -/
theorem temperature_answered {s t : State} {r : Byte} {d : Int} (h : exec (.dectemp r) s = .next t)
    (hd : t.rsp = some (.ok (.temperature d))) : d = tempOf s.cfg r := by
  cases (exec_dectemp r s).symm.trans h
  cases hd
  rfl

/-- Settles O21: the table rises step by step between its two printed ends. -/
theorem dectempAnswersTable : Obligations.DectempAnswersTable := by
  unfold Obligations.DectempAnswersTable
  refine ⟨decode_requestWord_dectemp, exec_dectemp, ?_⟩
  intro s t r d hlegal h hd
  obtain rfl := temperature_answered h hd
  obtain ⟨hlow, hhigh⟩ := tempOf_bounds hlegal r
  refine ⟨hlow, hhigh, ?_, ?_, tempImage_toInt hlow hhigh, ?_⟩
  · rintro rfl
    exact tempOf_low hlegal
  · rintro rfl
    exact tempOf_high hlegal
  · intro r' t' d' hr h' hd'
    obtain rfl := temperature_answered h' hd'
    exact tempOf_mono hlegal hr

/-! ## The fan table -/

/-- The byte of a level is the entry one below it (43_registry R201). -/
theorem fanByte_succ {n : Byte} {i : Nat} (hn : n.toNat = i + 1) (hi : i < fanTable.length) :
    fanByte n = some fanTable[i] := by
  have h8 : i + 1 ≤ 8 := hi
  rw [fanByte, hn, if_pos ⟨Nat.le_add_left 1 i, h8⟩, Nat.add_sub_cancel,
    List.getElem?_eq_getElem hi]

/-- Only the levels 1 to 8 have a byte (43_registry R201). -/
theorem fanByte_eq_none_iff (n : Byte) : fanByte n = none ↔ n.toNat = 0 ∨ 9 ≤ n.toNat := by
  by_cases hn : 1 ≤ n.toNat ∧ n.toNat ≤ 8
  · have hi : n.toNat - 1 < fanTable.length := by
      change n.toNat - 1 < 8
      omega
    rw [fanByte_succ (by omega) hi]
    exact iff_of_false nofun (by omega)
  · rw [fanByte, if_neg hn]
    exact iff_of_true rfl (by omega)

/-- A level with a byte is one more than a position of that byte. -/
theorem fanByte_some {n r : Byte} (h : fanByte n = some r) :
    ∃ (i : Nat) (hi : i < fanTable.length), n.toNat = i + 1 ∧ fanTable[i] = r := by
  have hn : ¬ (n.toNat = 0 ∨ 9 ≤ n.toNat) := by
    rw [← fanByte_eq_none_iff, h]
    nofun
  have hi : n.toNat - 1 < fanTable.length := by
    change n.toNat - 1 < 8
    omega
  have hsucc : n.toNat = n.toNat - 1 + 1 := by omega
  exact ⟨_, hi, hsucc, Option.some.inj ((fanByte_succ hsucc hi).symm.trans h)⟩

/-- The level of a byte of the fan table is one more than its position, since the bytes differ. -/
theorem fanLevel_getElem {i : Nat} (hi : i < fanTable.length) : fanLevel fanTable[i] = i + 1 := by
  have hnodup : fanTable.Nodup := by decide
  rcases fanLevel_cases fanTable[i] with ⟨j, hj, hlevel, heq⟩ | ⟨-, hnot⟩
  · rw [hlevel, (hnodup.getElem_inj_iff).mp heq]
  · exact absurd (List.getElem_mem hi) hnot

/-- Settles O23: the byte of level `L` is entry `L - 1` of the fan table, the byte of `L` low ones.
-/
theorem encfanAnswersByteOrFault : Obligations.EncfanAnswersByteOrFault := by
  unfold Obligations.EncfanAnswersByteOrFault
  refine ⟨decode_requestWord_encfan, ?_, ?_⟩
  · intro n s h1 h8
    have hi : n.toNat - 1 < fanTable.length := by
      change n.toNat - 1 < 8
      omega
    have hbyte : fanTable[n.toNat - 1] = BitVec.ofNat 8 (2 ^ n.toNat - 1) := by
      have hlt : 2 ^ n.toNat - 1 < 2 ^ 8 :=
        (Nat.sub_lt Nat.one_le_two_pow Nat.one_pos).trans_le (Nat.pow_le_pow_right two_pos h8)
      apply BitVec.eq_of_toNat_eq
      rw [fanTable_getElem_toNat hi, Nat.sub_add_cancel h1, BitVec.toNat_ofNat,
        Nat.mod_eq_of_lt hlt]
    rw [exec_encfan_some (fanByte_succ (by omega) hi), hbyte, respond]
  · intro n s hn
    exact exec_encfan_none ((fanByte_eq_none_iff n).mpr hn) s

/-- Settles O24: encoding and decoding both go by the position in the fan table. -/
theorem fanRoundTrip : Obligations.FanRoundTrip := by
  unfold Obligations.FanRoundTrip
  refine ⟨?_, ?_, ?_⟩
  · intro n r s t h hr
    cases hn : fanByte n with
    | none =>
      cases (exec_encfan_none hn s).symm.trans h
      cases hr
    | some raw =>
      cases (exec_encfan_some hn s).symm.trans h
      cases hr
      obtain ⟨i, hi, hlevel, rfl⟩ := fanByte_some hn
      rw [exec_decfan, fanLevel_getElem hi, hlevel, respond]
  · intro r s hr
    obtain ⟨i, hi, rfl⟩ := List.getElem_of_mem hr
    have h8 : i < 8 := hi
    have hlevel : (BitVec.ofNat 8 (i + 1)).toNat = i + 1 := by
      rw [BitVec.toNat_ofNat]
      exact Nat.mod_eq_of_lt (by omega)
    refine ⟨BitVec.ofNat 8 (i + 1), ?_, ?_⟩
    · rw [exec_decfan, fanLevel_getElem hi, hlevel, respond]
    · exact exec_encfan_some (fanByte_succ hlevel hi) s
  · intro r s hr
    have hlevel : fanLevel r = 0 := by
      rcases fanLevel_cases r with ⟨i, hi, -, rfl⟩ | ⟨hlevel, -⟩
      · exact absurd (List.getElem_mem hi) hr
      · exact hlevel
    constructor
    · rw [exec_decfan, hlevel, respond]
    · exact exec_encfan_none ((fanByte_eq_none_iff 0).mpr (.inl rfl)) s

end Sys2Proof.Machine
end

section
/-! The whole machine: what a step runs, the invariant of the resting state, counters, purity,
contract faults, and runs of any length. -/

namespace Sys2Proof.Machine

/-! ## Steps -/

section step
variable {s : State} {rest : List HostInput}

theorem step_idle (h : s.inbox = []) : step s = .next (idleStep s) := by
  rw [step, h]

theorem step_reset (h : s.inbox = .reset :: rest) : step s = .next (resetStep rest s) := by
  rw [step, h]

theorem step_request {w : BitVec 52} (h : s.inbox = .request w :: rest) :
    step s = exec (decodeRequest w) (beginRequest rest s) := by
  rw [step, h]

end step

theorem decodeRequest_of_decode {w : BitVec 52} {i : Instr} (h : decode (.req52 w) = .ok i) :
    decodeRequest w = i :=
  Except.ok.inj h

theorem decodeRequest_pushInput (b : Byte) :
    decodeRequest (requestWord 0x3 b 0 0 0 0 0) = .pushb b :=
  decodeRequest_of_decode (decode_requestWord_pushb b 0 0 0 0 0)

/-- A table word that decodes stands for a code that does (30_encoding section 2). -/
theorem decodeTableWord_some {nbits w : Nat} {i : Instr} (h : decodeTableWord nbits w = some i) :
    ∃ c, codeOfTableWord nbits w = some c ∧ decode c = .ok i := by
  unfold decodeTableWord at h
  split at h
  case h_1 => cases h
  case h_2 c hc =>
    split at h
    case h_1 j hj =>
      cases h
      exact ⟨c, hc, hj⟩
    case h_2 => cases h

/-- A word of 56 bits is a request word. -/
theorem codeOfTableWord_request {w : Nat} {c : Code} (h : codeOfTableWord 56 w = some c) :
    ∃ w', c = .req52 w' := by
  rw [codeOfTableWord, if_neg (by decide), if_pos (by decide)] at h
  split at h
  · cases h
    exact ⟨_, rfl⟩
  · cases h

/-- A word of 48 bits is a telegram's. -/
theorem codeOfTableWord_telegram {w : Nat} {c : Code} (h : codeOfTableWord 48 w = some c) :
    ∃ w', c = .tg48 w' := by
  rw [codeOfTableWord, if_pos rfl] at h
  split at h
  · cases h
    exact ⟨_, rfl⟩
  · cases h

/-! ## The invariant -/

section inv
variable {s t : State}

/-- An update of a counter counts at least 1 (42_dispatch R172, R173). -/
theorem Inv.one_le_incCounter (h : Inv s) (n : Nat) : 1 ≤ incCounter s.cfg n := by
  obtain ⟨-, -, hwidth⟩ := h.legal
  cases n with
  | zero => exact incCounter_zero_pos hwidth
  | succ n => exact (Nat.le_add_left 1 n).trans (le_incCounter s.cfg (n + 1))

theorem varCount_fits (h : Inv s) (c : Byte) : counterFits s.cfg (varCount s.var c) := by
  unfold varCount
  cases he : tableGet s.var c with
  | none => exact counterFits_zero s.cfg
  | some e => exact (h.varCount c e he).2

theorem trafCounts_fit (h : Inv s) (a : Byte) :
    counterFits s.cfg (trafCounts s.traf a).tx ∧ counterFits s.cfg (trafCounts s.traf a).rx := by
  unfold trafCounts
  cases he : tableGet s.traf a with
  | none => exact ⟨counterFits_zero s.cfg, counterFits_zero s.cfg⟩
  | some e => exact (h.trafCount a e he).2

/-- Every entry of the variable table has counted, and its counter fits. -/
theorem Effect.var_counted (h : Effect s t) (hi : Inv s) (c : Byte) (e : VarEntry)
    (he : tableGet t.var c = some e) : 1 ≤ e.cnt ∧ counterFits s.cfg e.cnt := by
  rcases h.var with hv | ⟨c', v, hv⟩
  · rw [hv] at he
    exact hi.varCount c e he
  · rw [hv, tableGet_tableSet] at he
    split at he
    · cases he
      exact ⟨hi.one_le_incCounter _, incCounter_fits (varCount_fits hi c')⟩
    · exact hi.varCount c e he

/-- Every entry of the traffic table has counted, and its counters fit. -/
theorem Effect.traf_counted (h : Effect s t) (hi : Inv s) (a : Byte) (e : TrafEntry)
    (he : tableGet t.traf a = some e) :
    1 ≤ e.tx + e.rx ∧ counterFits s.cfg e.tx ∧ counterFits s.cfg e.rx := by
  rcases h.traf with ht | ⟨tg, hcounted, -⟩
  · rw [ht] at he
    exact hi.trafCount a e he
  · obtain ⟨htx, hrx⟩ := trafCounts_fit hi a
    rw [hcounted a] at he
    split at he
    · cases he
      exact ⟨Nat.le_add_right_of_le (hi.one_le_incCounter _), incCounter_fits htx,
        incCounter_fits hrx⟩
    · split at he
      · cases he
        exact ⟨Nat.le_add_right_of_le (hi.one_le_incCounter _), incCounter_fits htx, hrx⟩
      · split at he
        · cases he
          exact ⟨Nat.le_add_left_of_le (hi.one_le_incCounter _), htx, incCounter_fits hrx⟩
        · exact hi.trafCount a e he

/-- Every instruction keeps the invariant. -/
theorem Effect.inv (h : Effect s t) (hi : Inv s) : Inv t where
  window := h.win_length hi.window
  varWf := by
    rcases h.var with hv | ⟨c, v, hv⟩ <;> rw [hv]
    · exact hi.varWf
    · exact tableSet_wf _ _ _ hi.varWf
  trafWf := by
    rcases h.traf with ht | ⟨tg, -, hwf⟩
    · exact ht.symm ▸ hi.trafWf
    · exact hwf hi.trafWf
  legal := h.cfg.symm ▸ hi.legal
  varCount c e he := h.cfg.symm ▸ h.var_counted hi c e he
  trafCount a e he := h.cfg.symm ▸ h.traf_counted hi a e he

/-- The invariant is about neither the request, the response nor the event channel. -/
theorem Inv.beginRequest (h : Inv s) (rest : List HostInput) : Inv (beginRequest rest s) :=
  ⟨h.window, h.varWf, h.trafWf, h.legal, h.varCount, h.trafCount⟩

theorem Inv.idleStep (h : Inv s) : Inv (idleStep s) :=
  ⟨h.window, h.varWf, h.trafWf, h.legal, h.varCount, h.trafCount⟩

/-- Empty tables and an empty window meet the invariant under every legal configuration. -/
theorem inv_resetWith {c : Config} (h : c.Legal) : Inv (State.resetWith c) where
  window := Nat.zero_le 5
  varWf := List.Pairwise.nil
  trafWf := List.Pairwise.nil
  legal := h
  varCount _ _ he := by cases he
  trafCount _ _ he := by cases he

theorem Inv.resetStep (h : Inv s) (rest : List HostInput) : Inv (resetStep rest s) := by
  obtain ⟨hwin, hvar, htraf, hlegal, hvc, htc⟩ := inv_resetWith h.legal
  exact ⟨hwin, hvar, htraf, hlegal, hvc, htc⟩

theorem step_inv (hi : Inv s) (h : step s = .next t) : Inv t := by
  cases hin : s.inbox with
  | nil =>
    cases (step_idle hin).symm.trans h
    exact hi.idleStep
  | cons x rest =>
    cases x with
    | reset =>
      cases (step_reset hin).symm.trans h
      exact hi.resetStep rest
    | request w => exact (exec_effect ((step_request hin).symm.trans h)).inv (hi.beginRequest rest)

end inv

/-! ## The obligations on the invariant -/

/-- Settles O50: an instruction updates at most one variable and counts at most one telegram, which
keeps the invariant; an idle step and a reset keep it too. -/
theorem stepKeepsInvariant : Obligations.StepKeepsInvariant := by
  unfold Obligations.StepKeepsInvariant
  exact fun s t => step_inv

/-- Settles O51, by the legality of the supplied configuration. -/
theorem resetMeetsInvariant : Obligations.ResetMeetsInvariant := by
  unfold Obligations.ResetMeetsInvariant
  exact inv_resetWith configSupplied_legal

/-! ## Runs -/

theorem step_cfg {s t : State} (h : step s = .next t) : t.cfg = s.cfg := by
  cases hin : s.inbox with
  | nil =>
    cases (step_idle hin).symm.trans h
    rfl
  | cons x rest =>
    cases x with
    | reset =>
      cases (step_reset hin).symm.trans h
      rfl
    | request w => exact (exec_effect ((step_request hin).symm.trans h)).cfg

theorem run_succ {M : Host.Core} {s t : M.State} (h : M.step s = .next t) (n : Nat) :
    M.run (n + 1) s = M.run n t := by
  rw [Host.Core.run, h]

/-- A run that answers a next state did so step by step. -/
theorem run_succ_next {M : Host.Core} {s t : M.State} {n : Nat} (h : M.run (n + 1) s = .next t) :
    ∃ u, M.step s = .next u ∧ M.run n u = .next t := by
  rw [Host.Core.run] at h
  split at h
  case h_1 u hu => exact ⟨u, hu, h⟩
  case h_2 => cases h
  case h_3 => cases h

theorem core_run_succ {s t : State} (h : step s = .next t) (n : Nat) :
    Host.Core.run Sys2Proof.core (n + 1) s = Host.Core.run Sys2Proof.core n t :=
  run_succ (M := Sys2Proof.core) h n

theorem run_cfg {n : Nat} {s t : State} (h : Host.Core.run Sys2Proof.core n s = .next t) :
    t.cfg = s.cfg := by
  induction n generalizing s with
  | zero =>
    cases h
    rfl
  | succ n ih =>
    obtain ⟨u, hu, ht⟩ := run_succ_next h
    exact (ih ht).trans (step_cfg hu)

/-- An instruction stops on a window of more than five bytes only (log 8). -/
theorem exec_next (i : Instr) {s : State} (h : s.win.length ≤ 5) : ∃ t, exec i s = .next t := by
  rcases instr_cases i with hp | ⟨b, rfl⟩ | ⟨tg, htg⟩
  · exact (exec_of_isPure hp s).imp' _ fun r hr => hr
  · obtain ⟨t, ht, -⟩ := execPushb_next b s h
    exact ⟨t, ht⟩
  · exact ⟨_, exec_of_telegram htg s⟩

theorem step_next {s : State} (h : Inv s) : ∃ t, step s = .next t := by
  cases hin : s.inbox with
  | nil => exact ⟨_, step_idle hin⟩
  | cons x rest =>
    cases x with
    | reset => exact ⟨_, step_reset hin⟩
    | request w =>
      obtain ⟨t, ht⟩ := exec_next (decodeRequest w) (h.beginRequest rest).window
      exact ⟨t, (step_request hin).trans ht⟩

theorem run_next {s : State} (h : Inv s) (n : Nat) :
    ∃ t, Host.Core.run Sys2Proof.core n s = .next t := by
  induction n generalizing s with
  | zero => exact ⟨s, rfl⟩
  | succ n ih =>
    obtain ⟨u, hu⟩ := step_next h
    obtain ⟨t, ht⟩ := ih (step_inv h hu)
    exact ⟨t, (core_run_succ hu n).trans ht⟩

/-- Every request is answered (60_exceptions R250). -/
theorem exec_request_rsp {i : Instr} {s t : State} (hi : i.telegram = none)
    (h : exec i s = .next t) : ∃ r, t.rsp = some r := by
  rcases isPure_or_pushb hi with hp | ⟨b, rfl⟩
  · obtain ⟨r, hr⟩ := exec_of_isPure hp s
    cases hr.symm.trans h
    exact ⟨r, rfl⟩
  · exact ⟨_, execPushb_rsp h⟩

/-- Settles O52: under the invariant every step answers a next state that keeps it. -/
theorem runNeverStops : Obligations.RunNeverStops := by
  unfold Obligations.RunNeverStops
  constructor
  · exact fun s => run_next
  · intro s w rest hi hin
    obtain ⟨t, ht⟩ := step_next hi
    have hexec := (step_request hin).symm.trans ht
    obtain ⟨r, hr⟩ := exec_request_rsp (telegram_decodeRequest w) hexec
    exact ⟨t, r, ht, hr, (exec_effect hexec).inbox⟩

/-- Settles O53, by induction on the number of steps. -/
theorem configurationNeverChanges : Obligations.ConfigurationNeverChanges := by
  unfold Obligations.ConfigurationNeverChanges
  exact fun n s t => run_cfg

/-- A run over pending pushes differs from the batch of their bytes in the channels only. -/
theorem run_pushInputs {bs : List Byte} {s t : State} (h : pushBatch bs s = .next t)
    (rest : List HostInput) (r : Option Response) (es : List Event) : ∃ r' es',
      Host.Core.run Sys2Proof.core bs.length (withChannels (bs.map pushInput ++ rest) r es s) =
        .next (withChannels rest r' es' t) := by
  induction bs generalizing s r es with
  | nil =>
    cases h
    exact ⟨r, es, rfl⟩
  | cons b bs ih =>
    obtain ⟨u, hu, ht⟩ := pushBatch_cons_next h
    obtain ⟨fs, hfs⟩ := execPushb_withChannels hu
    obtain ⟨r', es', hrun⟩ := ih ht (some (.ok .empty)) fs
    have hstep : step (withChannels ((b :: bs).map pushInput ++ rest) r es s) =
        .next (withChannels (bs.map pushInput ++ rest) (some (.ok .empty)) fs u) := by
      rw [step_request rfl, decodeRequest_pushInput, exec_pushb]
      exact hfs (bs.map pushInput ++ rest) none []
    exact ⟨r', es', (core_run_succ hstep bs.length).trans hrun⟩

/-- Settles O38, by induction on the pending pushes, each the step of one PUSHB. -/
theorem runOfPushRequestsIsBatch : Obligations.RunOfPushRequestsIsBatch := by
  unfold Obligations.RunOfPushRequestsIsBatch
  intro bs rest s t hin h
  obtain ⟨r, es, hrun⟩ := run_pushInputs h rest s.rsp s.evs
  have hs : withChannels (bs.map pushInput ++ rest) s.rsp s.evs s = s := by
    rw [withChannels, ← hin]
  rw [hs] at hrun
  exact ⟨_, hrun, rfl⟩

/-! ## One step at a time -/

/-- Settles O5: the word's decoding is total, and the request leaves the list. -/
theorem stepRunsDecodedRequest : Obligations.StepRunsDecodedRequest := by
  unfold Obligations.StepRunsDecodedRequest
  intro s w rest i hin hdec
  rw [step_request hin, decodeRequest_of_decode hdec, beginRequest]

/-- Settles O7: the pulse of `rst` is a step of its own. -/
theorem resetEmptiesWindowAndTables : Obligations.ResetEmptiesWindowAndTables := by
  unfold Obligations.ResetEmptiesWindowAndTables
  exact ⟨⟨rfl, fun c => rfl, fun a => rfl⟩, fun s rest hin => step_reset hin⟩

/-- Settles O8, the step with nothing to take. -/
theorem idleStepKeepsMachine : Obligations.IdleStepKeepsMachine := by
  unfold Obligations.IdleStepKeepsMachine
  exact fun s => step_idle

theorem withFetchWord_of_code {nbits w : Nat} {c : Code} (h : codeOfTableWord nbits w = some c)
    (s : State) : s.withFetchWord nbits w = placeCode c s := by
  rw [State.withFetchWord, h]

/-- A telegram placed for the next step is dispatched by the PUSHB of its last byte (log 15). -/
theorem step_placeTelegram {tg : Telegram} (hk : tg.checksum = telegramSum tg) (s : State) :
    step (placeTelegram tg s) = .next (dispatchTelegram tg
      { s with win := [], rsp := some (.ok .empty), evs := [.frameAccepted tg] }) := by
  rw [placeTelegram, placeRequest, step_request rfl, decodeRequest_pushInput, exec_pushb,
    execPushb_checksum rfl hk]
  rfl

/-- Settles O6: a request is the next of the list; a telegram is completed by the next push. -/
theorem placedInstructionRunsNext : Obligations.PlacedInstructionRunsNext := by
  unfold Obligations.PlacedInstructionRunsNext
  constructor
  · intro s w i h
    obtain ⟨c, hc, hdec⟩ := decodeTableWord_some h
    obtain ⟨w', rfl⟩ := codeOfTableWord_request hc
    rw [withFetchWord_of_code hc]
    exact (step_request rfl).trans (by rw [decodeRequest_of_decode hdec]; rfl)
  · intro s w i h
    obtain ⟨c, hc, hdec⟩ := decodeTableWord_some h
    obtain ⟨w', rfl⟩ := codeOfTableWord_telegram hc
    obtain ⟨htg, -, hk⟩ := classify_ok hdec
    refine ⟨telegramOfWord w', htg, ?_⟩
    rw [withFetchWord_of_code hc, exec_of_telegram htg]
    exact step_placeTelegram hk s

/-! ## Counters -/

/-- A variable's entry stays through an instruction, and its counter stays or takes one update. -/
theorem Effect.var_entry {s t : State} (h : Effect s t) {c : Byte} {e : VarEntry}
    (he : tableGet s.var c = some e) : ∃ e', tableGet t.var c = some e' ∧
      (e'.cnt = e.cnt ∨ e'.cnt = incCounter s.cfg e.cnt) := by
  rcases h.var with hv | ⟨c', v, hv⟩ <;> rw [hv]
  · exact ⟨e, he, .inl rfl⟩
  · by_cases hc : c = c'
    · subst hc
      refine ⟨_, tableGet_tableSet_same .., .inr ?_⟩
      rw [varCount, he, Option.map_some, Option.getD_some]
    · exact ⟨e, (tableGet_tableSet_other _ _ hc).trans he, .inl rfl⟩

/-- An address's entry stays through an instruction, and each of its counters stays or takes one
update. -/
theorem Effect.traf_entry {s t : State} (h : Effect s t) {a : Byte} {e : TrafEntry}
    (he : tableGet s.traf a = some e) : ∃ e', tableGet t.traf a = some e' ∧
      (e'.tx = e.tx ∨ e'.tx = incCounter s.cfg e.tx) ∧
      (e'.rx = e.rx ∨ e'.rx = incCounter s.cfg e.rx) := by
  rcases h.traf with ht | ⟨tg, hcounted, -⟩
  · rw [ht]
    exact ⟨e, he, .inl rfl, .inl rfl⟩
  · have hcounts : trafCounts s.traf a = e := by rw [trafCounts, he, Option.getD_some]
    rw [hcounted a, hcounts, he]
    split
    · exact ⟨_, rfl, .inr rfl, .inr rfl⟩
    · split
      · exact ⟨_, rfl, .inr rfl, .inl rfl⟩
      · split
        · exact ⟨_, rfl, .inl rfl, .inr rfl⟩
        · exact ⟨_, rfl, .inl rfl, .inl rfl⟩

theorem incCounter_finite {c : Config} {w : Nat} (h : c.cntW = some w) (n : Nat) :
    incCounter c n = if 2 ^ w - 1 ≤ n then n else n + 1 := by
  rw [incCounter, h]

/-- Settles O48: one instruction updates a counter at most once, and an update never lowers it. -/
theorem countersOnlyRise : Obligations.CountersOnlyRise := by
  unfold Obligations.CountersOnlyRise
  refine ⟨fun c n hc => incCounter_unbounded hc n, ?_, ?_, ?_⟩
  · intro c w n hc hn
    rw [incCounter_finite hc, if_neg (Nat.not_le.mpr hn)]
  · intro c w hc
    rw [incCounter_finite hc, if_pos le_rfl]
  · intro i s t h
    have heffect := exec_effect h
    exact ⟨fun c e => heffect.var_entry, fun a e => heffect.traf_entry⟩

/-! ## Purity -/

/-- A pure request answers the same in any two states that agree on the configuration and on the one
entry it reads (20_memory R57). -/
theorem exec_pure_same {i : Instr} {s s' : State} (hp : isPure i = true) (hcfg : s.cfg = s'.cfg)
    (hvar : ∀ c, i = .rdvar c → tableGet s.var c = tableGet s'.var c)
    (htraf : ∀ a, i = .rdtraf a → tableGet s.traf a = tableGet s'.traf a) : ∃ r,
      exec i s = .next { s with rsp := some r } ∧ exec i s' = .next { s' with rsp := some r } := by
  cases i with
  | reglook c => exact ⟨_, rfl, by rw [hcfg]; rfl⟩
  | dectemp r => exact ⟨_, rfl, by rw [hcfg]; rfl⟩
  | encfan n =>
    cases hn : fanByte n with
    | some raw => exact ⟨_, exec_encfan_some hn s, exec_encfan_some hn s'⟩
    | none => exact ⟨_, exec_encfan_none hn s, exec_encfan_none hn s'⟩
  | rdvar c => exact ⟨_, rfl, by rw [hvar c rfl]; rfl⟩
  | rdtraf a => exact ⟨_, rfl, by rw [htraf a rfl]; rfl⟩
  | pushb b => cases hp
  | tgPoll a b v k => cases hp
  | tgReport a b c v k => cases hp
  | tgRaw d a b c v k => cases hp
  | _ => exact ⟨_, rfl, rfl⟩

/-- A second PUSHB never leaves the state as it found it: a fill lengthens the window, a drop
appends an event, an accept empties a window of five. -/
theorem execPushb_ne_self (b : Byte) (t : State) : execPushb b t ≠ .next t := by
  intro h
  rcases execPushb_next_cases h with ⟨-, ht⟩ | ⟨w0, w1, w2, w3, w4, -, -, ht⟩ |
    ⟨tg, hwin, -, -, ht⟩
  · have hlen := congrArg (fun u => u.win.length) ht
    simp at hlen
  · have hlen := congrArg (fun u => u.evs.length) ht
    simp at hlen
  · have hempty := congrArg State.win ht
    rw [dispatchTelegram_win, acceptFrame_win, hwin] at hempty
    cases hempty

/-- Settles O49: a pure request answers the same in the state it left, since it agrees with the
first on all that is read. -/
theorem pureRequestsChangeNothing : Obligations.PureRequestsChangeNothing := by
  unfold Obligations.PureRequestsChangeNothing
  refine ⟨?_, ?_, fun b s t _ => execPushb_ne_self b t, ?_⟩
  · intro i s hp
    obtain ⟨r, he⟩ := exec_of_isPure hp s
    obtain ⟨r', he', hagain⟩ := exec_pure_same (s := s) (s' := { s with rsp := some r }) hp rfl
      (fun _ _ => rfl) (fun _ _ => rfl)
    cases he.symm.trans he'
    exact ⟨_, he, rfl, hagain⟩
  · intro i s s' t t' hp hcfg hvar htraf h h'
    obtain ⟨r, he, he'⟩ := exec_pure_same hp hcfg hvar htraf
    cases he.symm.trans h
    cases he'.symm.trans h'
    rfl
  · intro i hreq hp
    refine (isPure_or_pushb (Option.isNone_iff_eq_none.mp hreq)).resolve_left fun hp' => ?_
    rw [hp] at hp'
    cases hp'

/-! ## Contract faults -/

/-- Only RESERVED_F and ENCFAN answer a fault (60_exceptions R243). -/
theorem fault_answered {i : Instr} {s t : State} {r : ContractFault} (hs : s.rsp = none)
    (h : exec i s = .next t) (hr : t.rsp = some (.fault r)) :
    (r = .illegalOp ∧ i = .reservedF) ∨
      (r = .fanLevelRange ∧ ∃ n : Byte, i = .encfan n ∧ fanByte n = none) := by
  rcases instr_cases i with hp | ⟨b, rfl⟩ | ⟨tg, htg⟩
  · cases i with
    | reservedF =>
      cases h
      cases hr
      exact .inl ⟨rfl, rfl⟩
    | encfan n =>
      cases hn : fanByte n with
      | some raw =>
        cases (exec_encfan_some hn s).symm.trans h
        cases hr
      | none =>
        cases (exec_encfan_none hn s).symm.trans h
        cases hr
        exact .inr ⟨rfl, n, rfl, hn⟩
    | pushb b => cases hp
    | tgPoll a b v k => cases hp
    | tgReport a b c v k => cases hp
    | tgRaw d a b c v k => cases hp
    | _ =>
      cases h
      cases hr
  · rw [execPushb_rsp h] at hr
    cases hr
  · cases (exec_of_telegram htg s).symm.trans h
    rw [dispatchTelegram_rsp, hs] at hr
    cases hr

/-- Settles O47: of the pure requests two answer a fault, PUSHB answers `Ok` and DISPATCH nothing.
-/
theorem contractFaultsChangeNothing : Obligations.ContractFaultsChangeNothing := by
  unfold Obligations.ContractFaultsChangeNothing
  refine ⟨decode_requestWord_reservedF, fun s => rfl, ?_⟩
  intro i s t r hs h hr
  rcases fault_answered hs h hr with ⟨rfl, rfl⟩ | ⟨rfl, n, rfl, hn⟩
  · cases h
    exact ⟨rfl, .inl ⟨rfl, rfl⟩⟩
  · cases (exec_encfan_none hn s).symm.trans h
    exact ⟨rfl, .inr ⟨rfl, n, rfl, (fanByte_eq_none_iff n).mp hn⟩⟩

end Sys2Proof.Machine
end
